-- ==== Sys2Proof/Word.lean ====
section
/-! DEFINITION. The word types of the 2208: what the book treats as bits. Counts, segment numbers and frame numbers are
natural numbers; sets of sectors, of components and of chunks are bit vectors, one bit a member. -/

namespace Sys2Proof

/-- One byte of a record. -/
abbrev Byte := BitVec 8

/-- A set of positions 0..127 of one segment: position p is bit p (R207, "Sector set"). -/
abbrev SectorSet := BitVec 128

/-- A set of the components C0..C5: bit n stands for Cn (R207, "Component set"). -/
abbrev CompSet := BitVec 6

/-- A set of the chunks 0..3 of one segment. -/
abbrev ChunkSet := BitVec 4

end Sys2Proof
end

