-- ==== Sys2Proof/Config.lean ====
section
/-! DEFINITION. What the book fixes for the part as a whole, and the values the book leaves open. An open value is an
opaque constant: nothing in Lean can evaluate it. -/

namespace Sys2Proof.Config

/-- Tag slots of the Command Tracker (R73). -/
abbrev tagCount : Nat := 32

/-- Orders a Foreground queue holds (R135). -/
abbrev foregroundCapacity : Nat := 64

/-- Orders a Background queue holds (R136). -/
abbrev backgroundCapacity : Nat := 16

/-- PortDepth of the Flash Port (R138). -/
abbrev flashDepth : Nat := 8

/-- PortDepth of the Platter Port (R138). -/
abbrev platterDepth : Nat := 4

/-- Foreground dispatches in a row after which waiting Background work goes first (R140). -/
abbrev starvationLimit : Nat := 16

/-- Records the Link Unit's sum of R204 may stand for. -/
abbrev completionCapacity : Nat := 64

/-- Notices the notice queue holds (R203). -/
abbrev noticeCapacity : Nat := 8

/-- PENDING moves the Move Queue holds (R111). -/
abbrev moveQueueCapacity : Nat := 32

/-- The value at which a statistics counter, and the epoch counter, stops (R205, R32). -/
abbrev maxU32 : Nat := 4294967295

/-- The greatest heat (R33), occurrence count (R202) and stream run length (R62). -/
abbrev maxU16 : Nat := 65535

/-- FREE VALUE (DESIGN CHOICE, log entry 3). The byte a completion holds where the book names a field but states no
value for it (the entry fields of a Query Segment that found no entry). The argument is the value's index. -/
opaque unstatedByte : Nat → Byte

/-- FREE VALUE (DESIGN CHOICE, log entry 4). Whether a saved Range Table slot whose match-mode byte names neither
choice loads as OUTSIDE; the book states no meaning for such a byte (R208). -/
opaque savedModeIsOutside : Byte → Bool

/-- FREE VALUE (DESIGN CHOICE, log entry 4). The code 0..3 of the action that a saved Range Table slot loads with when
its action byte names none of the four choices (R208). -/
opaque savedActionCode : Byte → Fin 4

end Sys2Proof.Config
end

