-- ==== Sys2Proof/Syntax.lean ====
section
/-! DEFINITION. The commands of the 2208: one constructor of `Instr` for each row of spec/opcode_table.json. A record of a
link stands with the fields that chapter Record Formats gives it; an event of the part itself (a timer, an arbiter's
decision, the end of a wait) stands with what the event names. -/

namespace Sys2Proof

/-- The two media ports (1.2). -/
inductive Port where
  | flash
  | platter
  deriving DecidableEq, Repr

/-- The kinds of a command descriptor (R69). -/
inductive CommandKind where
  | read
  | write
  | trim
  | flushCache
  deriving DecidableEq, Repr

/-- A command descriptor as it arrives on the Command Link (R69, 11.1). The widths are those of its record, so every
value of every field has a meaning (R208). -/
structure Descriptor where
  kind   : CommandKind
  tag    : Fin 32
  cls    : Fin 16
  start  : BitVec 40
  length : BitVec 16
  buffer : BitVec 32
  deriving DecidableEq, Repr

/-- The head of a control transaction (R187): its sequence number, and whether every reserved byte and bit of the record,
the argument bytes its kind does not use among them, is zero (R208). -/
structure TxnHead where
  seq           : Byte
  reservedClear : Bool
  deriving DecidableEq, Repr

/-- A frame label as it stands on a link (11.3): the segment field is all ones for the label EMPTY. -/
structure FrameLabel where
  segment    : BitVec 64
  writeSeq   : BitVec 48
  dirty      : Bool
  full       : Bool
  generation : Byte
  validSet   : SectorSet
  deriving DecidableEq, Repr

/-- An order result (11.3): the order id, the outcome byte (0 OK, any other value ERROR, R208), the label read (it has
meaning for a LABEL_READ that returns OK), and the bytes the flash sequencer has put into the checkpoint buffer (they have
meaning for a READ of the checkpoint region that returns OK). -/
structure OrderResult where
  id      : Byte
  outcome : Byte
  label   : FrameLabel
  buffer  : List Byte
  deriving DecidableEq, Repr

/-- The commands and events of the 2208, one for each row of spec/opcode_table.json. -/
inductive Instr where
  | powerOnReset
  | commandDescriptor (d : Descriptor)
  | linkReset
  | discardedRecord (type : Byte)
  | unknownKind (kind : Byte) (h : TxnHead)
  | configure (h : TxnHead) (frameCount : BitVec 32) (platterSectors : BitVec 64) (checkpointBlocks : BitVec 32)
  | loadClass (h : TxnHead) (cls readWeight writeWeight : Byte) (streamsCount noPromote : Bool)
  | loadRange (h : TxnHead) (slot : Byte) (enabled : Bool) (mode action : Byte) (start stop : BitVec 64)
  | setParameter (h : TxnHead) (id : Byte) (value : BitVec 32)
  | reportSpindle (h : TxnHead) (state : Byte)
  | setPortLevel (h : TxnHead) (port level : Byte)
  | save (h : TxnHead) (requested mode : Byte)
  | quiesceEnd
  | restore (h : TxnHead) (requested : Byte)
  | restoreHeaderRead
  | rebuild (h : TxnHead)
  | rebuildLabelReads
  | initializeComponents (h : TxnHead) (named : Byte)
  | goOnline (h : TxnHead)
  | goOffline (h : TxnHead)
  | drainEnd
  | prefetch (h : TxnHead) (start : BitVec 64) (count : Byte)
  | querySegment (h : TxnHead) (segment : BitVec 64)
  | readStatus (h : TxnHead) (clear : Bool)
  | cancelBackground (h : TxnHead)
  | resetEngine (h : TxnHead)
  | resetEngineEnd
  | millisecondTick
  | timeAgingEvent
  | platterQuiet
  | routingPass
  | orderDispatch (port : Port)
  | orderResult (port : Port) (r : OrderResult)
  | responseLinkSend
  deriving DecidableEq, Repr

/-- The seventeen control transactions (R187). -/
inductive TxnKind where
  | configure
  | loadClass
  | loadRange
  | setParameter
  | reportSpindle
  | setPortLevel
  | save
  | restore
  | rebuild
  | goOnline
  | goOffline
  | prefetch
  | querySegment
  | readStatus
  | initializeComponents
  | cancelBackground
  | resetEngine
  deriving DecidableEq, Repr

end Sys2Proof
end

