-- ==== Sys2Proof/WellFormed.lean ====
section
/-! DEFINITION. Which commands a link can deliver. Most fields are as wide as their place in the record, so what is left to
check is that the three rows for records the Link Unit does not know are used for such records alone. -/

namespace Sys2Proof

/-- The codes of the record types the Command Link knows (R207). -/
def knownRecordTypes : List Byte := [0x01, 0x02, 0x08]

/-- A command as the 2208 can meet it: a discarded record is of an unknown type (R207); an UNKNOWN_KIND transaction has a
kind code outside 1..17 (11.1); a kind code of 0 is one of those. -/
def Instr.wellFormed : Instr → Bool
  | .discardedRecord type => !knownRecordTypes.contains type
  | .unknownKind kind _ => kind.toNat == 0 || decide (17 < kind.toNat)
  | .powerOnReset | .commandDescriptor _ | .linkReset | .configure _ _ _ _ | .loadClass _ _ _ _ _ _
  | .loadRange _ _ _ _ _ _ _ | .setParameter _ _ _ | .reportSpindle _ _ | .setPortLevel _ _ _ | .save _ _ _
  | .quiesceEnd | .restore _ _ | .restoreHeaderRead | .rebuild _ | .rebuildLabelReads | .initializeComponents _ _
  | .goOnline _ | .goOffline _ | .drainEnd | .prefetch _ _ _ | .querySegment _ _ | .readStatus _ _
  | .cancelBackground _ | .resetEngine _ | .resetEngineEnd | .millisecondTick | .timeAgingEvent | .platterQuiet
  | .routingPass | .orderDispatch _ | .orderResult _ _ | .responseLinkSend => true

end Sys2Proof
end

