-- ==== Sys2Proof/Machine/State.lean ====
section
/-! DEFINITION. The state of the 2208 as plain data, block by block in the order of 1.3, and its value at power-on
(`State.reset`). What is the model's own and not the book's says so at its field: `CommandTracker.passDue`,
`HeatUnit.secondsDue`, `PlatterMonitor.quietReached`, `State.pending`, `State.untaken`, `State.freeIndex` and the three
wires. -/

namespace Sys2Proof.Machine

/-! ## Reasons a step can stop -/

/-- Reasons the machine stops with a fault. The book describes none: every command and event of the part has an effect,
and what it refuses it answers with a completion. Safe: nothing raises one. -/
inductive Fault where
  deriving DecidableEq, Repr

/-- Reasons a command has no meaning in the model. -/
inductive Refusal where
  /-- Raised by an arm of `exec` whose command is not modelled yet; no arm raises it now. Safe: the machine stops. -/
  | notModelled (mnemonic : String)
  deriving DecidableEq, Repr

/-! ## Records of the Segment Map (chapter 1) and of the Heat Unit (chapter 2) -/

/-- A heat record (R33): heat 0..65535, the stamp and the saturated mark. -/
structure HeatRec where
  heat      : Nat
  stamp     : Nat
  saturated : Bool
  deriving DecidableEq, Repr

/-- The states of a map entry (R3, 1.3). -/
inductive EntryState where
  | fresh    -- NEW
  | inbound
  | clean
  | dirty
  | flushing
  deriving DecidableEq, Repr

/-- The validity of an entry: a FULL entry stores no set, a PARTIAL entry stores its valid set (R4). -/
inductive Validity where
  | full
  | part (set : SectorSet)
  deriving DecidableEq, Repr

/-- A map entry (R3). -/
structure Entry where
  segment       : Nat
  frame         : Nat
  state         : EntryState
  validity      : Validity
  generation    : Byte
  heat          : HeatRec
  absorbs       : Nat
  flushFailures : Nat
  marker        : Option Byte
  deriving DecidableEq, Repr

/-- The states of a frame (R20). -/
inductive FrameState where
  | free
  | bound
  | trimming
  | retired
  deriving DecidableEq, Repr

/-- A row of the Frame Table: the frame's state and its in-flight count 0..8 (R20). -/
structure Frame where
  state    : FrameState
  inFlight : Nat
  deriving DecidableEq, Repr

/-- The Segment Map: the entries in ascending segment order, the Frame Table (frame f is row f), the Free Frame List, the
Reclaim List and the Dirty List (head first; the last two hold segment numbers), the dirty count and the write-sequence
counter (R30). -/
structure SegmentMap where
  entries    : List Entry
  frames     : List Frame
  freeList   : List Nat
  reclaim    : List Nat
  dirty      : List Nat
  dirtyCount : Nat
  writeSeq   : BitVec 48
  deriving DecidableEq, Repr

/-- A full way of the Candidate Table (R38): its place, set × 4 + way, the segment and the heat record. -/
structure Candidate where
  place   : Nat
  segment : Nat
  heat    : HeatRec
  deriving DecidableEq, Repr

/-- The Heat Unit (R52). The Candidate Table lists its full ways in ascending place; a way not listed is empty.
`secondsDue` is the model's own: seconds that the time residue has ended and whose TIME_AGING_EVENT has not been taken. -/
structure HeatUnit where
  epoch       : Nat
  agingCount  : Nat
  timeResidue : Nat
  secondsDue  : Nat
  candidates  : List Candidate
  heatLimit   : Bool
  deriving DecidableEq, Repr

/-! ## Ranges, classes, parameters and streams (chapters 3 and 9) -/

inductive MatchMode where
  | inside
  | outside
  deriving DecidableEq, Repr

inductive RangeAction where
  | pin
  | bypass
  | boost2
  | boost4
  deriving DecidableEq, Repr

/-- A slot of the Range Table (R53). -/
structure RangeSlot where
  enabled : Bool
  start   : Nat
  stop    : Nat
  mode    : MatchMode
  action  : RangeAction
  deriving DecidableEq, Repr

/-- A record of the Class Table (R60). -/
structure ClassRec where
  readWeight   : Nat
  writeWeight  : Nat
  streamsCount : Bool
  noPromote    : Bool
  deriving DecidableEq, Repr

/-- The Range Comparator: the Range Table and the Class Table. -/
structure RangeComparator where
  ranges  : Vector RangeSlot 16
  classes : Vector ClassRec 16
  deriving DecidableEq, Repr

/-- A stream record (R62). An invalid record holds no rank: its rank field is then 0. -/
structure StreamRec where
  valid : Bool
  next  : Nat
  run   : Nat
  rank  : Nat
  deriving DecidableEq, Repr

inductive EpochSource where
  | commands
  | time
  | either
  deriving DecidableEq, Repr

inductive DecayMode where
  | halve
  | gentle
  deriving DecidableEq, Repr

/-- The eight notice kinds, in the order of the NoticeSkip ids (R201). -/
inductive NoticeKind where
  | spinUpRequest
  | platterQuiet
  | platterDegraded
  | platterRecovered
  | dirtyHigh
  | heatLimit
  | moveSpill
  | mediaFault
  deriving DecidableEq, Repr

/-- The parameters of Set Parameter, ids 1 to 24 (R191). StreamClearMask: bit 0 platter enters STOPPED, bit 1 epoch
advance, bit 2 Flush Cache, bit 3 Link Reset. DegradeClearMask: bit 0 READY from STARTING, bit 1 READY from PARKED. -/
structure Params where
  admitThreshold   : Nat
  hysteresis       : Nat
  scanWindow       : Nat
  freeReserve      : Nat
  dirtyHigh        : Nat
  dirtyLow         : Nat
  epochSource      : EpochSource
  epochSpan        : Nat
  decayMode        : DecayMode
  streamThreshold  : Nat
  streamClearMask  : BitVec 4
  latencyLimit     : Nat
  degradeThreshold : Nat
  degradeClearMask : BitVec 2
  quietTime        : Nat
  noticeSkip       : Vector Nat 8
  enabled          : CompSet
  deriving DecidableEq, Repr

/-! ## Commands and pieces (chapter 4) -/

inductive Route where
  | flashRead
  | platterRead
  | splitRead
  | absorb
  | platterWrite
  | platterTrim
  deriving DecidableEq, Repr

/-- Why a piece is WAITING (R76): ROOM names the ports that lacked room, FRAME the awaited frame. -/
inductive WaitReason where
  | route
  | room (flash platter : Bool)
  | frame (f : Nat)
  | save
  deriving DecidableEq, Repr

/-- The states of a piece (R76). A HELD piece is held by the yield request of R78 or else by R77. -/
inductive PieceState where
  | waiting (reason : WaitReason)
  | held (byYield : Bool)
  | issued
  | done
  | failed
  deriving DecidableEq, Repr

/-- The operations of a media order (R131). -/
inductive Operation where
  | read
  | write
  | trim
  | labelWrite
  | labelRead
  deriving DecidableEq, Repr

inductive PartState where
  | unplaced
  | placed
  | endedOk
  | endedError
  deriving DecidableEq, Repr

/-- An order part of a piece (R76). -/
structure OrderPart where
  port    : Port
  op      : Operation
  sectors : SectorSet
  state   : PartState
  deriving DecidableEq, Repr

/-- A piece record (R76); the wait reason and the awaited frame stand in its state. -/
structure Piece where
  segment : Nat
  sectors : SectorSet
  state   : PieceState
  route   : Option Route
  parts   : List OrderPart
  onFlash   : Bool
  onPlatter : Bool
  error   : Bool
  deriving DecidableEq, Repr

/-- A command record (R73): HELD is a command taken in SAVING and not yet split, OPEN any other. -/
structure Command where
  kind       : CommandKind
  cls        : Nat
  start      : Nat
  length     : Nat
  buffer     : BitVec 32
  classCopy  : ClassRec
  sequential : Bool
  held       : Bool
  pieces     : List Piece
  deriving DecidableEq, Repr

/-- A tag slot (R73): FREE holds no command. -/
structure TagSlot where
  useNo   : BitVec 16
  command : Option Command
  deriving DecidableEq, Repr

/-- The Command Tracker. `passDue` is the model's own: an event of R80 has called for a routing pass and the pass has not
been made yet. -/
structure CommandTracker where
  slots   : Vector TagSlot 32
  arrival : List (Fin 32)
  passDue : Bool
  deriving DecidableEq, Repr

/-! ## Moves (chapter 5) -/

inductive MoveKind where
  | promote
  | flush
  | directed
  | urgent
  deriving DecidableEq, Repr

inductive MoveState where
  | pending
  | active
  | suspended
  | paused
  | ended
  deriving DecidableEq, Repr

inductive StopCause where
  | chunkError
  | cancel
  | offline
  | spill
  | entryEnded
  deriving DecidableEq, Repr

/-- A move record (R103). Its level is its kind's (R102); its arrival is its place in the Move Queue. `needed` is none
while the chunks needed are not yet known; `firstChunk` is the chunk of R117. -/
structure Move where
  number     : Byte
  kind       : MoveKind
  segment    : Nat
  frame      : Option Nat
  state      : MoveState
  needed     : Option ChunkSet
  firstChunk : Nat
  done       : ChunkSet
  parts      : Option SectorSet
  captured   : Option Byte
  overtaken  : Bool
  started    : Bool
  preempt    : Bool
  yielding   : Bool
  stop       : Option StopCause
  deriving DecidableEq, Repr

/-- Where a chunk in flight stands (R115): its read is queued or outstanding, its write waits for room, or its write is
queued or outstanding. -/
inductive ChunkStage where
  | reading
  | writeWaiting
  | writing
  deriving DecidableEq, Repr

/-- A HELD staging slot: the chunk of the active move that holds it (R115). -/
structure ChunkSlot where
  chunk : Nat
  stage : ChunkStage
  deriving DecidableEq, Repr

/-- The Migration Engine (R130). The Move Queue stands in its order, the Move Stack with its top first. -/
structure MigrationEngine where
  queue      : List Move
  stack      : List Move
  active     : Option Move
  slot0      : Option ChunkSlot
  slot1      : Option ChunkSlot
  lastNumber : Byte
  urgent     : Bool
  queueDrop  : Bool
  moveSpill  : Bool
  deriving DecidableEq, Repr

/-! ## Media orders (chapter 6) -/

/-- The six origins of an order with the identification each carries (R132). -/
inductive Origin where
  | piece (tag : Fin 32) (useNo : BitVec 16) (segment part : Nat)
  | chunk (number : Byte) (chunk : Nat)
  | trim (frame : Nat)
  | labelUpdate (frame : Nat) (captured : Byte)
  | labelRead (frame : Nat)
  | checkpoint (request : Nat)
  deriving DecidableEq, Repr

/-- The address of an order (R131): a segment of the platter, a flash frame, or a first block of the checkpoint region. -/
inductive Address where
  | platter (segment : Nat)
  | frame (f : Nat)
  | region (block : Nat)
  deriving DecidableEq, Repr

/-- The buffer reference of an order (R131). -/
inductive BufferRef where
  | none
  | host (handle : BitVec 32)
  | staging (slot : Nat)
  | checkpoint
  deriving DecidableEq, Repr

inductive Group where
  | foreground
  | background
  deriving DecidableEq, Repr

/-- A media order as it stands in a queue (R131). -/
structure Order where
  port    : Port
  group   : Group
  origin  : Origin
  op      : Operation
  address : Address
  sectors : Option SectorSet
  blocks  : Option Nat
  buffer  : BufferRef
  level   : Option Nat
  deriving DecidableEq, Repr

/-- A dispatched order: what R131 sets at dispatch, beside the order itself. -/
structure Dispatched where
  id    : Byte
  order : Order
  label : Option FrameLabel
  time  : BitVec 32
  deriving DecidableEq, Repr

/-- One port's scheduler (R148). -/
structure Scheduler where
  foreground  : List Order
  background  : List Order
  outstanding : List Dispatched
  starvation  : Nat
  level       : Nat
  lastId      : Byte
  deriving DecidableEq, Repr

/-- A request on the Flash Port's held list (R136). -/
inductive HeldRequest where
  | trim (frame : Nat)
  | labelUpdate (frame : Nat) (captured : Byte)
  deriving DecidableEq, Repr

/-! ## Platter state (chapter 7) -/

inductive PlatterState where
  | stopped
  | starting
  | ready
  | stopping
  | parked
  deriving DecidableEq, Repr

/-- A record of the watch list (R153). -/
structure WatchRec where
  id          : Byte
  interrupted : Bool
  deriving DecidableEq, Repr

/-- The Platter Monitor (R163): the platter state, the four facts of the work view (R151), the spin-up-request marker, the
watch list, the excursion count, the Degraded flag, the quiet timer and the quiet marker (`quietArmed`: ARMED).
`quietReached` is the model's own: the timer has reached QuietTime in its present run. -/
structure PlatterMonitor where
  state             : PlatterState
  foregroundWaiting : Bool
  platterWork       : Bool
  movesExist        : Bool
  urgentMove        : Bool
  spinUpRequested   : Bool
  watch             : List WatchRec
  excursion         : Nat
  degraded          : Bool
  quietTimer        : Nat
  quietReached      : Bool
  quietArmed        : Bool
  deriving DecidableEq, Repr

/-! ## Checkpoints and Rebuild (chapter 8) -/

inductive Layout where
  | standard
  | compact
  deriving DecidableEq, Repr

/-- What the header says of one component's record (R168). -/
structure RecordEntry where
  sequence : Nat
  start    : Nat
  length   : Nat
  crc      : BitVec 32
  deriving DecidableEq, Repr

/-- The checkpoint header and the Checkpoint Unit's header image of it (R168). -/
structure Header where
  layout     : Option Layout
  sequence   : Nat
  frameCount : Nat
  present    : CompSet
  entries    : Vector RecordEntry 6
  writeSeq   : BitVec 48
  deriving DecidableEq, Repr

/-- A Save from its plan on (R172 to R174). `current` is the component whose record is being written, none for the header;
`waiting` is the checkpoint order that waits for room. -/
structure SaveProgress where
  requested     : CompSet
  fullPerformed : Bool
  written       : CompSet
  present       : CompSet
  sequence      : Nat
  remaining     : List (Fin 6)
  current       : Option (Fin 6)
  snapshotted   : CompSet
  entries       : Vector RecordEntry 6
  nextBlock     : Nat
  header        : Header
  waiting       : Option Order
  deriving DecidableEq, Repr

/-- A Restore from its header READ on (R176 to R179). `current` is the component being read, none for the header. -/
structure RestoreProgress where
  requested : CompSet
  remaining : List (Fin 6)
  current   : Option (Fin 6)
  loaded    : CompSet
  failed    : CompSet
  waiting   : Option Order
  deriving DecidableEq, Repr

/-- A Rebuild from its label reads on (R180, R181): the next frame to read, the results taken, the frames classed TRIMMING
and RETIRED, and the largest write sequence seen. -/
structure RebuildProgress where
  nextFrame : Nat
  returned  : Nat
  trimming  : List Nat
  retired   : List Nat
  maxSeq    : Option (BitVec 48)
  deriving DecidableEq, Repr

/-- The Checkpoint Unit's operation with the progress of the one in flight. -/
inductive CuOperation where
  | idle
  | quiescing (requested : CompSet) (full : Bool)
  | saving (p : SaveProgress)
  | restoreDraining (requested : CompSet)
  | restoring (p : RestoreProgress)
  | rebuildDraining
  | rebuilding (p : RebuildProgress)
  deriving DecidableEq, Repr

/-- A claimant of the rebuild table (R181). -/
structure Claim where
  segment : Nat
  frame   : Nat
  label   : FrameLabel
  deriving DecidableEq, Repr

/-- The Checkpoint Unit (R185). The Enabled set is a parameter. `buffer` holds the bytes of the checkpoint buffer and
`requestNo` the number of the last checkpoint order (R132). -/
structure CheckpointUnit where
  inUse         : CompSet
  modified      : CompSet
  layout        : Option Layout
  image         : Header
  operation     : CuOperation
  snapshotMarks : CompSet
  rebuildTable  : List Claim
  buffer        : List Byte
  requestNo     : Nat
  deriving DecidableEq, Repr

/-! ## The Link Unit (chapters 9 and 10) -/

inductive EngineMode where
  | unconfigured
  | offline
  | restoring
  | rebuilding
  | online
  | saving
  | draining
  deriving DecidableEq, Repr

/-- The long-transaction marker (R188). -/
inductive LongMarker where
  | none
  | save
  | restore
  | rebuild
  | goOffline
  | resetEngine
  deriving DecidableEq, Repr

/-- The statuses of a command completion (11.2). -/
inductive CommandStatus where
  | good
  | mediaError
  | notOnline
  | tagInUse
  | lengthInvalid
  | addressRange
  deriving DecidableEq, Repr

inductive ServedFrom where
  | none
  | flash
  | platter
  | mixed
  deriving DecidableEq, Repr

/-- The statuses of a transaction completion (R187). -/
inductive TxnStatus where
  | done
  | doneClamped
  | refused
  | saveFailed
  | noSpace
  | noImage
  | headerInvalid
  | geometryMismatch
  deriving DecidableEq, Repr

/-- The reasons of a refusal (R187, R188). -/
inductive Reason where
  | none
  | wrongMode
  | badArgument
  | busy
  | unknownKind
  deriving DecidableEq, Repr

/-- The action of a verdict (R55). -/
inductive VerdictAction where
  | none
  | pin
  | bypass
  | boost2
  | boost4
  deriving DecidableEq, Repr

/-- A verdict of the Range Comparator (R55). -/
structure Verdict where
  action    : VerdictAction
  governing : Option Nat
  boost     : Nat
  deriving DecidableEq, Repr

/-- What Query Segment reports (R197): the entry with its decayed heat, or for an absent segment its candidate with the
decayed heat; the segment's move; the verdict. -/
structure SegmentReport where
  entry     : Option (Entry × Nat)
  candidate : Option (HeatRec × Nat)
  move      : Option (Byte × MoveKind × MoveState)
  verdict   : Verdict
  deriving DecidableEq, Repr

/-- What Read Status reports (R198). -/
structure StatusReport where
  mode       : EngineMode
  marker     : LongMarker
  platter    : PlatterState
  degraded   : Bool
  urgent     : Bool
  heatLimit  : Bool
  moveSpill  : Bool
  queueDrop  : Bool
  free       : Nat
  bound      : Nat
  trimming   : Nat
  retired    : Nat
  dirtyCount : Nat
  queueLength : Nat
  stackDepth : Nat
  epoch      : Nat
  deriving DecidableEq, Repr

/-- The results of a transaction completion, by kind (11.2). -/
inductive TxnResults where
  | none
  | configured (frameCount : Nat) (layout : Layout) (dirtyHigh dirtyLow freeReserve : Nat)
  | rangeEnd (stop : Nat)
  | value (v : Nat)
  | dirtyPair (high low : Nat)
  | level (l : Nat)
  | saved (set : CompSet) (fullPerformed : Bool)
  | restored (loaded failed : CompSet) (mapLost : Bool)
  | rebuilt (entries dirty free trimming retired : Nat)
  | count (n : Nat)
  | segment (r : SegmentReport)
  | status (r : StatusReport)
  deriving DecidableEq, Repr

/-- A completion of the completion queue (R204). -/
inductive Completion where
  | command (tag : Fin 32) (status : CommandStatus) (served : ServedFrom)
  | transaction (kind seq : Byte) (status : TxnStatus) (reason : Reason) (results : TxnResults)
  deriving DecidableEq, Repr

/-- A posted notice (R202). -/
structure Notice where
  kind        : NoticeKind
  occurrences : Nat
  time        : BitVec 32
  argument    : Nat
  deriving DecidableEq, Repr

/-- The occurrence count of one kind with the time and argument of the latest occurrence (R202); none until one is taken. -/
structure Occurrence where
  count  : Nat
  latest : Option (BitVec 32 × Nat)
  deriving DecidableEq, Repr

/-- The Link Unit. `markerSeq` is the sequence number of the long transaction in flight, for its completion (R187). -/
structure LinkUnit where
  mode             : EngineMode
  marker           : LongMarker
  markerSeq        : Byte
  frameCount       : Nat
  platterSectors   : Nat
  checkpointBlocks : Nat
  completions      : List Completion
  notices          : List Notice
  deferred         : List NoticeKind
  occurrences      : Vector Occurrence 8
  deriving DecidableEq, Repr

/-! ## The whole machine -/

/-- The state of the 2208. `stats` holds the 32 counters of C5 in index order (R205); `timebase` is the millisecond count
of 1.5. The model's own: `responseWire`, `flashWire` and `platterWire` are the bytes of the record last sent on the
Response Link and of the order last sent on each port; `untaken` holds the Command Link records that wait untaken (R204);
`freeIndex` numbers the free values used so far; `pending` is the queue of commands to come, first in, first out. -/
structure State where
  lu           : LinkUnit
  ct           : CommandTracker
  sm           : SegmentMap
  hu           : HeatUnit
  rc           : RangeComparator
  streams      : Vector StreamRec 8
  params       : Params
  me           : MigrationEngine
  fps          : Scheduler
  held         : List HeldRequest
  pps          : Scheduler
  pm           : PlatterMonitor
  cu           : CheckpointUnit
  stats        : Vector Nat 32
  timebase     : BitVec 32
  responseWire : List Byte
  flashWire    : List Byte
  platterWire  : List Byte
  untaken      : List Instr
  freeIndex    : Nat
  pending      : List Instr
  deriving DecidableEq, Repr

/-! ## Power-on values -/

/-- The reset value of a Range Table slot (R53). -/
def RangeSlot.initial : RangeSlot := ⟨false, 0, 0, .inside, .pin⟩

/-- The reset value of a class record (R60). -/
def ClassRec.initial : ClassRec := ⟨16, 4, false, false⟩

/-- An invalid stream record (R68). -/
def StreamRec.initial : StreamRec := ⟨false, 0, 0, 0⟩

/-- The defaults of the parameter table with the derived parameters 0 (R191). -/
def Params.defaults : Params where
  admitThreshold := 512
  hysteresis := 256
  scanWindow := 4
  freeReserve := 0
  dirtyHigh := 0
  dirtyLow := 0
  epochSource := .time
  epochSpan := 60
  decayMode := .halve
  streamThreshold := 1024
  streamClearMask := 0b1001
  latencyLimit := 400
  degradeThreshold := 16
  degradeClearMask := 0b11
  quietTime := 2000
  noticeSkip := Vector.replicate 8 0
  enabled := 0b111111

/-- The map with no frames: the power-on values of R30. -/
def SegmentMap.initial : SegmentMap := ⟨[], [], [], [], [], 0, 0⟩

/-- The power-on values of R52. -/
def HeatUnit.initial : HeatUnit := ⟨0, 0, 0, 0, [], false⟩

/-- The power-on values of R68. -/
def RangeComparator.initial : RangeComparator :=
  ⟨Vector.replicate 16 RangeSlot.initial, Vector.replicate 16 ClassRec.initial⟩

/-- The power-on values of R101. -/
def CommandTracker.initial : CommandTracker := ⟨Vector.replicate 32 ⟨0, none⟩, [], false⟩

/-- The power-on values of R130. -/
def MigrationEngine.initial : MigrationEngine := ⟨[], [], none, none, none, 255, false, false, false⟩

/-- The power-on values of R148. -/
def Scheduler.initial : Scheduler := ⟨[], [], [], 0, 0, 255⟩

/-- The power-on values of R163. -/
def PlatterMonitor.initial : PlatterMonitor :=
  ⟨.stopped, false, false, false, false, false, [], 0, false, 0, false, true⟩

/-- The header image at power-on (R168, R185); the values of its record entries and of its write-sequence counter are the
model's choice (DESIGN CHOICE, log entry 2). -/
def Header.initial : Header := ⟨none, 0, 0, 0, Vector.replicate 6 ⟨0, 0, 0, 0⟩, 0⟩

/-- The power-on values of R185; the contents of the checkpoint buffer and the request number are the model's choice (log
entry 2). -/
def CheckpointUnit.initial : CheckpointUnit :=
  ⟨0, 0b111111, none, Header.initial, .idle, 0, [], [], 0⟩

/-- The power-on values of R186 to R189 and R206. -/
def LinkUnit.initial : LinkUnit :=
  ⟨.unconfigured, .none, 0, 0, 0, 0, [], [], [], Vector.replicate 8 ⟨0, none⟩⟩

/-- The machine right after power-on reset (R186, R206 and the reset tables of every chapter). The timebase, the wires, the
checkpoint buffer, the request number and the two model's own fields `freeIndex` and `markerSeq` have no reset value in the
book: log entries 2 and 3 name theirs. -/
def State.reset : State where
  lu := LinkUnit.initial
  ct := CommandTracker.initial
  sm := SegmentMap.initial
  hu := HeatUnit.initial
  rc := RangeComparator.initial
  streams := Vector.replicate 8 StreamRec.initial
  params := Params.defaults
  me := MigrationEngine.initial
  fps := Scheduler.initial
  held := []
  pps := Scheduler.initial
  pm := PlatterMonitor.initial
  cu := CheckpointUnit.initial
  stats := Vector.replicate 32 0
  timebase := 0
  responseWire := []
  flashWire := []
  platterWire := []
  untaken := []
  freeIndex := 0
  pending := []

end Sys2Proof.Machine
end

