-- ==== Sys2Proof/Machine/Ops.lean ====
section
/-! DEFINITION. The named operations the blocks share: sets of sectors, chunks and components, bytes, statistics counters,
reports of change to the Checkpoint Unit, and completions. -/

namespace Sys2Proof.Machine

/-! ## Sets -/

/-- The positions lo..hi−1 of a segment; empty when hi is not above lo. -/
def rangeMask (lo hi : Nat) : SectorSet :=
  BitVec.ofNat 128 ((2 ^ (hi - lo) - 1) * 2 ^ lo)

/-- The positions of chunk c: 32c..32c+31 (1.5). -/
def chunkMask (c : Nat) : SectorSet := rangeMask (32 * c) (32 * c + 32)

/-- The members of a first set that are not in a second. -/
def setMinus (a b : SectorSet) : SectorSet := a &&& ~~~b

/-- Whether two sector sets share a position. -/
def overlaps (a b : SectorSet) : Bool := a &&& b != 0

/-- The set holding chunk c alone. -/
def chunkBit (c : Nat) : ChunkSet := BitVec.ofNat 4 (2 ^ c)

/-- The chunks that hold a position of a sector set. -/
def chunksOf (v : SectorSet) : ChunkSet :=
  (List.range 4).foldl (fun acc c => if overlaps v (chunkMask c) then acc ||| chunkBit c else acc) 0

/-- The set holding component c alone. -/
def compBit (c : Fin 6) : CompSet := BitVec.ofNat 6 (2 ^ c.val)

/-- Whether component c is in a set. -/
def CompSet.has (v : CompSet) (c : Fin 6) : Bool := v.getLsbD c.val

/-- The members of a first component set that are not in a second. -/
def compMinus (a b : CompSet) : CompSet := a &&& ~~~b

/-- The components of a set in order C0 to C5. -/
def compList (v : CompSet) : List (Fin 6) :=
  (List.finRange 6).filter fun c => CompSet.has v c

/-- The table with f applied to every entry. -/
def vmap {α β : Type} {n : Nat} (f : α → β) (v : Vector α n) : Vector β n :=
  Vector.ofFn fun i => f v[i]

/-! ## Bytes -/

/-- A value as n bytes, least significant byte first (R207). -/
def leBytes : Nat → Nat → List Byte
  | 0, _ => []
  | n + 1, v => BitVec.ofNat 8 v :: leBytes n (v / 256)

/-- The value of n bytes from an offset, least significant byte first (R207); a byte beyond the end reads as 0. -/
def readLE (data : List Byte) (offset : Nat) : Nat → Nat
  | 0 => 0
  | n + 1 => (data.getD offset 0).toNat + 256 * readLE data (offset + 1) n

/-- n zero bytes. -/
def zeros (n : Nat) : List Byte := List.replicate n 0

/-- A list of bytes brought to n bytes with zero bytes at its end. -/
def padTo (n : Nat) (bs : List Byte) : List Byte := bs ++ zeros (n - bs.length)

/-- The blocks that a number of bytes takes: ceil(bytes / 4096) (R166). -/
def blocksOf (bytes : Nat) : Nat := (bytes + 4095) / 4096

/-! ## Geometry -/

/-- The segment of an LBA (1.5). -/
def segmentOf (lba : Nat) : Nat := lba / 128

/-- The last segment of the platter, (PlatterSectors−1) div 128 (R118). -/
def lastSegment (s : State) : Nat := (s.lu.platterSectors - 1) / 128

/-- The positions of a segment whose LBAs lie below PlatterSectors (R118). -/
def platterMask (s : State) (segment : Nat) : SectorSet :=
  rangeMask 0 (min 128 (s.lu.platterSectors - 128 * segment))

/-! ## Resets and reports of change -/

/-- Whether a Reset Engine is in flight (R200). -/
def inReset (s : State) : Bool := s.lu.marker == .resetEngine

/-- Whether a save that is writing has taken its snapshot of component c (R173). -/
def snapshotTaken (c : Fin 6) : CuOperation → Bool
  | .saving p => CompSet.has p.snapshotted c
  | _ => false

/-- A report of a change to component c (R165): c joins InUse and Modified, and its snapshot mark is set when a save has
taken its snapshot (R173). -/
def touch (c : Fin 6) (s : State) : State :=
  { s with
    cu.inUse := s.cu.inUse ||| compBit c
    cu.modified := s.cu.modified ||| compBit c
    cu.snapshotMarks :=
      if snapshotTaken c s.cu.operation then s.cu.snapshotMarks ||| compBit c else s.cu.snapshotMarks }

/-- A report that component c has been initialized (R165): it leaves InUse and joins Modified. -/
def reportInitialized (c : Fin 6) (s : State) : State :=
  { s with
    cu.inUse := compMinus s.cu.inUse (compBit c)
    cu.modified := s.cu.modified ||| compBit c }

/-- A report that component c has been loaded by Restore (R165): it joins InUse and leaves Modified. -/
def reportLoaded (c : Fin 6) (s : State) : State :=
  { s with
    cu.inUse := s.cu.inUse ||| compBit c
    cu.modified := compMinus s.cu.modified (compBit c) }

/-! ## Statistics -/

/-- The counters of component C5 (R205). -/
inductive Counter where
  | readsFlash
  | readsPlatter
  | readsMixed
  | absorbedWrites
  | mediaErrors
  | evictions
  | retiredFrames
  | candidateDrops
  | admissionRefusals
  | promotionsFinished
  | promotionsAbandoned
  | flushesFinished
  | flushesMismatched
  | flushesFailed
  | queueDrops
  | spills
  | degradedEntries
  | noticesSent (kind : NoticeKind)
  | noticesMerged
  | postsDeferred
  | commandsTaken
  | descriptorsRefused
  | commandsFailed
  | transactionsRefused
  | linkResets
  deriving DecidableEq, Repr

/-- The index of a counter (R205). -/
def counterIndex : Counter → Fin 32
  | .readsFlash => 0
  | .readsPlatter => 1
  | .readsMixed => 2
  | .absorbedWrites => 3
  | .mediaErrors => 4
  | .evictions => 5
  | .retiredFrames => 6
  | .candidateDrops => 7
  | .admissionRefusals => 8
  | .promotionsFinished => 9
  | .promotionsAbandoned => 10
  | .flushesFinished => 11
  | .flushesMismatched => 12
  | .flushesFailed => 13
  | .queueDrops => 14
  | .spills => 15
  | .degradedEntries => 16
  | .noticesSent .spinUpRequest => 17
  | .noticesSent .platterQuiet => 18
  | .noticesSent .platterDegraded => 19
  | .noticesSent .platterRecovered => 20
  | .noticesSent .dirtyHigh => 21
  | .noticesSent .heatLimit => 22
  | .noticesSent .moveSpill => 23
  | .noticesSent .mediaFault => 24
  | .noticesMerged => 25
  | .postsDeferred => 26
  | .commandsTaken => 27
  | .descriptorsRefused => 28
  | .commandsFailed => 29
  | .transactionsRefused => 30
  | .linkResets => 31

/-- A rise of a counter by 1 (R205): at the top it stays and is no change of C5; any other rise is a change of C5. -/
def bump (k : Counter) (s : State) : State :=
  if s.stats[counterIndex k] < Config.maxU32 then
    touch 5 { s with stats := s.stats.set (counterIndex k) (s.stats[counterIndex k] + 1) }
  else s

/-! ## Completions -/

/-- A completion is handed to the Response Link's sending side (R204). -/
def complete (r : Completion) (s : State) : State :=
  { s with lu.completions := s.lu.completions ++ [r] }

/-- The occupied tag slots. -/
def occupiedSlots (s : State) : Nat := s.ct.slots.toList.countP fun t => t.command.isSome

/-- The sum that the Link Unit holds below 64 (R204): the completions waiting, the occupied slots, and 1 for a long
transaction in flight. -/
def linkSum (s : State) : Nat :=
  s.lu.completions.length + occupiedSlots s + (if s.lu.marker = .none then 0 else 1)

/-! ## Rows of the Segment Map -/

/-- The map entry of a segment, none for ABSENT (R1). -/
def lookup (segment : Nat) (s : State) : Option Entry :=
  s.sm.entries.find? fun e => e.segment == segment

/-- The map entry bound to a frame. -/
def boundEntry (f : Nat) (s : State) : Option Entry :=
  s.sm.entries.find? fun e => e.frame == f

/-- The effective valid set of an entry (R4). -/
def validSet (e : Entry) : SectorSet :=
  match e.validity with
  | .full => BitVec.allOnes 128
  | .part v => v

/-- The validity of an entry whose valid set is the given one (R4). -/
def validityOf (v : SectorSet) : Validity :=
  if v = BitVec.allOnes 128 then .full else .part v

/-- The state of a frame of the Frame Table. -/
def frameState (f : Nat) (s : State) : Option FrameState := (s.sm.frames[f]?).map Frame.state

/-- The in-flight count of a frame; 0 for a number outside the table. -/
def inFlight (f : Nat) (s : State) : Nat := ((s.sm.frames[f]?).map Frame.inFlight).getD 0

/-- The number of frames in a state (R20, R198). -/
def framesIn (st : FrameState) (s : State) : Nat := s.sm.frames.countP fun f => f.state == st

end Sys2Proof.Machine
end

