-- ==== Sys2Proof/Decode.lean ====
section
/-! DEFINITION. Records as bytes: the reading of a Command Link record and of an order result (11.1, 11.3), an encoder of the
Command Link records after it, and the host's `decodeTableWord`. The opcode table gives no row any bits, so no word of the
table spells a command: a command of the 2208 is a record of a link, or an event that no record brings. -/

namespace Sys2Proof

open Machine (readLE leBytes zeros padTo)

/-! ## Reading a Command Link record (11.1) -/

/-- The command kind of a code (11.1). -/
def commandKindOf (b : BitVec 2) : CommandKind :=
  if b = 0 then .read else if b = 1 then .write else if b = 2 then .trim else .flushCache

/-- A command descriptor (11.1): reserved bits and bytes are ignored (R208). -/
def decodeDescriptor (bs : List Byte) : Descriptor :=
  { kind := commandKindOf ((bs.getD 1 0).truncate 2)
    tag := BitVec.toFin ((bs.getD 2 0).truncate 5)
    cls := BitVec.toFin ((bs.getD 3 0).truncate 4)
    start := BitVec.ofNat 40 (readLE bs 4 5)
    length := BitVec.ofNat 16 (readLE bs 10 2)
    buffer := BitVec.ofNat 32 (readLE bs 12 4) }

/-- Whether every byte from an offset on is zero. -/
def clearFrom (offset : Nat) (bs : List Byte) : Bool := (bs.drop offset).all fun b => b == 0

/-- Whether a flags byte sets no bit from bit n on. -/
def flagsWithin (n : Nat) (b : Byte) : Bool := decide (b.toNat < 2 ^ n)

/-- A control transaction (11.1). Its reserved bytes and bits are those its kind's arguments leave (R208). -/
def decodeTransaction (bs : List Byte) : Instr :=
  let byte := fun i => bs.getD i 0
  let head := fun used (flags : Bool) => TxnHead.mk (byte 2) (byte 3 == 0 && clearFrom used bs && flags)
  match (byte 1).toNat with
  | 1 =>
    .configure (head 20 true) (BitVec.ofNat 32 (readLE bs 4 4)) (BitVec.ofNat 64 (readLE bs 8 8))
      (BitVec.ofNat 32 (readLE bs 16 4))
  | 2 =>
    .loadClass (head 8 (flagsWithin 2 (byte 7))) (byte 4) (byte 5) (byte 6) ((byte 7).getLsbD 0) ((byte 7).getLsbD 1)
  | 3 =>
    .loadRange (head 24 (flagsWithin 1 (byte 5))) (byte 4) ((byte 5).getLsbD 0) (byte 6) (byte 7)
      (BitVec.ofNat 64 (readLE bs 8 8)) (BitVec.ofNat 64 (readLE bs 16 8))
  | 4 =>
    .setParameter (head 12 (byte 5 == 0 && byte 6 == 0 && byte 7 == 0)) (byte 4) (BitVec.ofNat 32 (readLE bs 8 4))
  | 5 => .reportSpindle (head 5 true) (byte 4)
  | 6 => .setPortLevel (head 6 true) (byte 4) (byte 5)
  | 7 => .save (head 6 true) (byte 4) (byte 5)
  | 8 => .restore (head 5 true) (byte 4)
  | 9 => .rebuild (head 4 true)
  | 10 => .goOnline (head 4 true)
  | 11 => .goOffline (head 4 true)
  | 12 => .prefetch (head 13 true) (BitVec.ofNat 64 (readLE bs 4 8)) (byte 12)
  | 13 => .querySegment (head 12 true) (BitVec.ofNat 64 (readLE bs 4 8))
  | 14 => .readStatus (head 5 (flagsWithin 1 (byte 4))) ((byte 4).getLsbD 0)
  | 15 => .initializeComponents (head 5 true) (byte 4)
  | 16 => .cancelBackground (head 4 true)
  | 17 => .resetEngine (head 4 true)
  | _ => .unknownKind (byte 1) (head 4 true)

/-- A Command Link record (R207): a descriptor of 16 bytes, a Link Reset of its type byte alone, a control transaction of 32
bytes, or a record of an unknown type. None where the bytes are no whole record of their type. -/
def decodeLink (bs : List Byte) : Option Instr :=
  match bs with
  | [] => none
  | type :: _ =>
    if type = 0x01 then (if bs.length = 16 then some (.commandDescriptor (decodeDescriptor bs)) else none)
    else if type = 0x02 then (if bs.length = 1 then some .linkReset else none)
    else if type = 0x08 then (if bs.length = 32 then some (decodeTransaction bs) else none)
    else some (.discardedRecord type)

/-! ## Reading an order result (11.3) -/

/-- A frame label at an offset (11.3); reserved bits are ignored (R208). -/
def decodeLabel (bs : List Byte) (offset : Nat) : FrameLabel :=
  { segment := BitVec.ofNat 64 (readLE bs offset 8)
    writeSeq := BitVec.ofNat 48 (readLE bs (offset + 8) 6)
    dirty := (bs.getD (offset + 14) 0).getLsbD 0
    full := (bs.getD (offset + 14) 0).getLsbD 1
    generation := bs.getD (offset + 15) 0
    validSet := BitVec.ofNat 128 (readLE bs (offset + 16) 16) }

/-- The label EMPTY (R207). -/
def FrameLabel.empty : FrameLabel := ⟨BitVec.allOnes 64, 0, false, false, 0, 0⟩

/-- An order result as it arrives on a port (11.3): 8 bytes, or 36 with a label. `buffer` is what the flash sequencer has put
into the checkpoint buffer. -/
def decodeResult (port : Port) (buffer bs : List Byte) : Option Instr :=
  if bs.length = 8 then some (.orderResult port ⟨bs.getD 0 0, bs.getD 1 0, FrameLabel.empty, buffer⟩)
  else if bs.length = 36 then some (.orderResult port ⟨bs.getD 0 0, bs.getD 1 0, decodeLabel bs 4, buffer⟩)
  else none

/-! ## The encoder of the Command Link records -/

/-- The code of a command kind (11.1). -/
def commandKindCode : CommandKind → Byte
  | .read => 0
  | .write => 1
  | .trim => 2
  | .flushCache => 3

/-- A command descriptor as its 16 bytes (11.1). -/
def encodeDescriptor (d : Descriptor) : List Byte :=
  [0x01, commandKindCode d.kind, BitVec.ofNat 8 d.tag.val, BitVec.ofNat 8 d.cls.val] ++ leBytes 5 d.start.toNat ++ [0]
    ++ leBytes 2 d.length.toNat ++ leBytes 4 d.buffer.toNat

/-- Two flags as the lowest bits of a byte. -/
def twoFlags (a b : Bool) : Byte := (if a then 1 else 0) ||| (if b then 2 else 0)

/-- A control transaction as its 32 bytes (11.1). No kind uses byte 31: a head whose reserved fields are not clear sets it. -/
def encodeTransaction (kind : Byte) (h : TxnHead) (arguments : List Byte) : List Byte :=
  padTo 31 ([0x08, kind, h.seq] ++ [0] ++ arguments) ++ [if h.reservedClear then 0 else 1]

/-- A command that arrives on the Command Link as its record; none for an event that no record brings. -/
def encodeLink : Instr → Option (List Byte)
  | .commandDescriptor d => some (encodeDescriptor d)
  | .linkReset => some [0x02]
  | .discardedRecord type => some [type]
  | .unknownKind kind h => some (encodeTransaction kind h [])
  | .configure h n p c =>
    some (encodeTransaction 1 h (leBytes 4 n.toNat ++ leBytes 8 p.toNat ++ leBytes 4 c.toNat))
  | .loadClass h cls rw ww a b => some (encodeTransaction 2 h [cls, rw, ww, twoFlags a b])
  | .loadRange h slot on mode action start stop =>
    some (encodeTransaction 3 h
      ([slot, twoFlags on false, mode, action] ++ leBytes 8 start.toNat ++ leBytes 8 stop.toNat))
  | .setParameter h id v => some (encodeTransaction 4 h ([id, 0, 0, 0] ++ leBytes 4 v.toNat))
  | .reportSpindle h st => some (encodeTransaction 5 h [st])
  | .setPortLevel h port level => some (encodeTransaction 6 h [port, level])
  | .save h set mode => some (encodeTransaction 7 h [set, mode])
  | .restore h set => some (encodeTransaction 8 h [set])
  | .rebuild h => some (encodeTransaction 9 h [])
  | .goOnline h => some (encodeTransaction 10 h [])
  | .goOffline h => some (encodeTransaction 11 h [])
  | .prefetch h start count => some (encodeTransaction 12 h (leBytes 8 start.toNat ++ [count]))
  | .querySegment h segment => some (encodeTransaction 13 h (leBytes 8 segment.toNat))
  | .readStatus h clear => some (encodeTransaction 14 h [twoFlags clear false])
  | .initializeComponents h named => some (encodeTransaction 15 h [named])
  | .cancelBackground h => some (encodeTransaction 16 h [])
  | .resetEngine h => some (encodeTransaction 17 h [])
  | .powerOnReset | .quiesceEnd | .restoreHeaderRead | .rebuildLabelReads | .drainEnd | .resetEngineEnd
  | .millisecondTick | .timeAgingEvent | .platterQuiet | .routingPass | .orderDispatch _ | .orderResult _ _
  | .responseLinkSend => none

/-! ## The opcode table -/

/-- The command that a word spells by the opcode table's bits: the table gives no row any bits, so none. -/
def decodeTableWord (_nbits _w : Nat) : Option Instr := none

end Sys2Proof
end

