-- ==== Sys2Proof/Machine/Flags.lean ====
section
/-! DEFINITION. Notices and sticky flags: how a block's occurrence becomes a posted notice (chapter 10), and the three flags
that Read Status reports and clears. -/

namespace Sys2Proof.Machine

/-! ## Notices -/

/-- The place of a notice kind in the order of the NoticeSkip ids (R201). -/
def NoticeKind.index : NoticeKind → Fin 8
  | .spinUpRequest => 0
  | .platterQuiet => 1
  | .platterDegraded => 2
  | .platterRecovered => 3
  | .dirtyHigh => 4
  | .heatLimit => 5
  | .moveSpill => 6
  | .mediaFault => 7

/-- The queue with a notice merged into the newest waiting notice of its kind (R203): occurrences add, stopping at 65535;
time and argument become the new ones; the place is kept. None when no notice of the kind waits. -/
def mergeNotice (n : Notice) : List Notice → Option (List Notice)
  | [] => none
  | w :: ws =>
    match mergeNotice n ws with
    | some ws' => some (w :: ws')
    | none =>
      if w.kind = n.kind then
        some ({ w with
          occurrences := min Config.maxU16 (w.occurrences + n.occurrences)
          time := n.time
          argument := n.argument } :: ws)
      else none

/-- The occurrence count of a kind returns to 0 (R202). -/
def clearCount (k : NoticeKind) (s : State) : State :=
  { s with lu.occurrences := s.lu.occurrences.set k.index { s.lu.occurrences[k.index] with count := 0 } }

/-- The notice of a kind as its count and latest occurrence now stand (R202). -/
def noticeOf (k : NoticeKind) (s : State) : Notice :=
  let o := s.lu.occurrences[k.index]
  ⟨k, o.count, (o.latest.map Prod.fst).getD 0, (o.latest.map Prod.snd).getD 0⟩

/-- Posting a notice of a kind (R203): it joins the tail of the notice queue; with the queue full it merges into the newest
of its kind; with none of its kind there the posting is deferred and the count stays. -/
def post (k : NoticeKind) (s : State) : State :=
  let n := noticeOf k s
  if s.lu.notices.length < Config.noticeCapacity then
    clearCount k { s with lu.notices := s.lu.notices ++ [n] }
  else
    match mergeNotice n s.lu.notices with
    | some q => bump .noticesMerged (clearCount k { s with lu.notices := q })
    | none =>
      if s.lu.deferred.contains k then s
      else bump .postsDeferred { s with lu.deferred := s.lu.deferred ++ [k] }

/-- The Link Unit takes an occurrence (R201, R202); while a Reset Engine is in flight it takes none. -/
def occur (k : NoticeKind) (argument : Nat) (s : State) : State :=
  if inReset s then s
  else
    let c := min Config.maxU16 (s.lu.occurrences[k.index].count + 1)
    let s1 : State :=
      { s with lu.occurrences := s.lu.occurrences.set k.index ⟨c, some (s.timebase, argument)⟩ }
    if s.params.noticeSkip[k.index] + 1 ≤ c then post k s1 else s1

/-- The code of a platter state in Report Spindle and in a notice's argument (11.1, 11.2). -/
def platterCode : PlatterState → Nat
  | .stopped => 0
  | .starting => 1
  | .ready => 2
  | .stopping => 3
  | .parked => 4

/-! ## Sticky flags -/

/-- The clear option of Read Status (R198): HEAT_LIMIT, MOVE_SPILL and QUEUE_DROP are cleared. -/
def clearSticky (s : State) : State :=
  { s with
    hu.heatLimit := false
    me.moveSpill := false
    me.queueDrop := false }

end Sys2Proof.Machine
end

