-- ==== Sys2Proof/Machine/Streams.lean ====
section
/-! DEFINITION. The Stream Detector (3.4): the eight stream records, the consultation for a command, and the clear events. -/

namespace Sys2Proof.Machine

/-- The ranks after record i is used, where `former` is its former rank, or 8 for a newly filled record (R62): i takes rank
0 and every valid record of a rank below `former` moves up by 1. -/
def rankUse (i : Fin 8) (former : Nat) (v : Vector StreamRec 8) : Vector StreamRec 8 :=
  Vector.ofFn fun j =>
    if j = i then { v[j] with rank := 0 }
    else if v[j].valid && decide (v[j].rank < former) then { v[j] with rank := v[j].rank + 1 }
    else v[j]

/-- A record whose train is lost (R65): it is invalid, holds no rank, and its run length is discarded. Its next expected LBA stays
as it was (DEDUCED, log entry 14). -/
def lostStream (r : StreamRec) : StreamRec := { r with valid := false, run := 0, rank := 0 }

/-- Record j loses its train, and the valid records of higher rank move down by 1 (R65). -/
def dropStream (j : Fin 8) (v : Vector StreamRec 8) : Vector StreamRec 8 :=
  Vector.ofFn fun k =>
    if k = j then lostStream v[k]
    else if v[k].valid && decide (v[j].rank < v[k].rank) then { v[k] with rank := v[k].rank - 1 }
    else v[k]

/-- Every valid record other than i with i's next expected LBA becomes invalid (R65). -/
def dropDuplicates (i : Fin 8) (v : Vector StreamRec 8) : Vector StreamRec 8 :=
  (List.finRange 8).foldl
    (fun w j => if j ≠ i && w[j].valid && w[j].next == w[i].next then dropStream j w else w) v

/-- The valid record whose next expected LBA is the start LBA, if there is one (R63). -/
def matchingStream (start : Nat) (v : Vector StreamRec 8) : Option (Fin 8) :=
  (List.finRange 8).find? fun i => v[i].valid && v[i].next == start

/-- The record a new train fills (R64): the lowest-numbered invalid record, otherwise the valid record of rank 7. -/
def streamToFill (v : Vector StreamRec 8) : Fin 8 :=
  match (List.finRange 8).find? fun i => !v[i].valid with
  | some i => i
  | none => ((List.finRange 8).find? fun i => v[i].rank == 7).getD 0

/-- The records with record i holding the given train and just used. -/
def storeStream (i : Fin 8) (former next run : Nat) (v : Vector StreamRec 8) : Vector StreamRec 8 :=
  dropDuplicates i (rankUse i former (v.set i ⟨true, next, min Config.maxU16 run, 0⟩))

/-- The consultation for a READ or WRITE command (R63, R64): the sequential mark and the state after it. -/
def consultStreams (start length : Nat) (s : State) : Bool × State :=
  match matchingStream start s.streams with
  | some i =>
    (decide (s.params.streamThreshold ≤ s.streams[i].run),
      touch 4 { s with
        streams := storeStream i s.streams[i].rank (start + length) (s.streams[i].run + length) s.streams })
  | none =>
    (false,
      touch 4 { s with streams := storeStream (streamToFill s.streams) 8 (start + length) length s.streams })

/-- Every record becomes invalid (R66); with no valid record nothing changes. -/
def clearStreams (s : State) : State :=
  if s.streams.toList.any fun r => r.valid then
    touch 4 { s with streams := Vector.replicate 8 StreamRec.initial }
  else s

/-- The clear events, by their bit in StreamClearMask (R66, 11.1). -/
inductive ClearEvent where
  | stopped
  | epochAdvance
  | flushCache
  | linkReset
  deriving DecidableEq, Repr

/-- The bit of a clear event in StreamClearMask. -/
def clearBit : ClearEvent → Nat
  | .stopped => 0
  | .epochAdvance => 1
  | .flushCache => 2
  | .linkReset => 3

/-- A clear event taken by the Stream Detector (R66). -/
def streamEvent (e : ClearEvent) (s : State) : State :=
  if s.params.streamClearMask.getLsbD (clearBit e) then clearStreams s else s

end Sys2Proof.Machine
end

