-- ==== Sys2Proof/Machine/Heat.lean ====
section
/-! DEFINITION. The Heat Unit (2.1 to 2.4): the epoch and its aging events, decay, the contribution of an access, the heat
update, the Candidate Table, and the reconciliation after a load. Admission (2.5) stands in Admission.lean. -/

namespace Sys2Proof.Machine

/-! ## The epoch -/

/-- The Engine Modes in which aging events are counted (R31). -/
def agingMode : EngineMode → Bool
  | .online | .saving | .draining => true
  | .unconfigured | .offline | .restoring | .rebuilding => false

/-- An epoch advance (R32): the Stream Detector and the Checkpoint Unit hear of it. At the top the epoch stays and the event
is no advance. -/
def advanceEpoch (s : State) : State :=
  if s.hu.epoch < Config.maxU32 then
    streamEvent .epochAdvance (touch 1 { s with hu.epoch := s.hu.epoch + 1 })
  else s

/-- One aging event (R31, R32). -/
def agingEvent (s : State) : State :=
  if agingMode s.lu.mode then
    if s.params.epochSpan ≤ s.hu.agingCount + 1 then advanceEpoch { s with hu.agingCount := 0 }
    else { s with hu.agingCount := s.hu.agingCount + 1 }
  else s

/-- Whether EpochSource counts commands (R31). -/
def countsCommands (s : State) : Bool := s.params.epochSource != .time

/-- Whether EpochSource counts seconds (R31). -/
def countsTime (s : State) : Bool := s.params.epochSource != .commands

/-- One millisecond of the time residue (R31): it rises by 1, and where it would reach 1000 it returns to 0 and a second has
ended, whose aging event is TIME_AGING_EVENT. -/
def residueTick (s : State) : State :=
  if agingMode s.lu.mode && countsTime s then
    if 1000 ≤ s.hu.timeResidue + 1 then
      { s with hu.timeResidue := 0, hu.secondsDue := s.hu.secondsDue + 1 }
    else { s with hu.timeResidue := s.hu.timeResidue + 1 }
  else s

/-! ## Decay and the heat update -/

/-- The step of GENTLE decay taken k times: floor(3 × value / 4) (R34). -/
def gentleDecay : Nat → Nat → Nat
  | 0, h => h
  | k + 1, h => gentleDecay k (3 * h / 4)

/-- The decayed heat of a heat h at age k (R34). -/
def decayHeat (mode : DecayMode) (k h : Nat) : Nat :=
  match mode with
  | .halve => if 16 ≤ k then 0 else h / 2 ^ k
  | .gentle => if 40 ≤ k then 0 else gentleDecay k h

/-- The decayed heat of a record at the present epoch: a compare (R33, R34). -/
def decayedHeat (r : HeatRec) (s : State) : Nat :=
  decayHeat s.params.decayMode (s.hu.epoch - r.stamp) r.heat

/-- The saturated mark after decay (R34). -/
def decayedMark (r : HeatRec) (s : State) : Bool := r.saturated && s.hu.epoch - r.stamp == 0

/-- Whether an update with contribution c saturates a record (R36). -/
def saturates (r : HeatRec) (c : Nat) (s : State) : Bool := decide (Config.maxU16 < decayedHeat r s + c)

/-- The record an update with contribution c stores (R36). -/
def updatedRec (r : HeatRec) (c : Nat) (s : State) : HeatRec :=
  ⟨min Config.maxU16 (decayedHeat r s + c), s.hu.epoch, saturates r c s || decayedMark r s⟩

/-- The length factor F (R37). -/
def lengthFactor (length : Nat) : Nat := if length ≤ 16 then 4 else if length ≤ 64 then 2 else 1

/-- The contribution C of an access of a command (R37). -/
def contribution (cmd : Command) (boost : Nat) : Nat :=
  if cmd.sequential && !cmd.classCopy.streamsCount then 0
  else
    (if cmd.kind = .read then cmd.classCopy.readWeight else cmd.classCopy.writeWeight)
      * lengthFactor cmd.length * boost

/-- The effects of a saturating update beside the record (R36): the HEAT_LIMIT flag and an occurrence. -/
def heatLimitReached (segment : Nat) (s : State) : State :=
  occur .heatLimit segment { s with hu.heatLimit := true }

/-! ## The Candidate Table -/

/-- The set of a segment (R38). -/
def candidateSet (segment : Nat) : Nat := segment % 1024

/-- The candidates of a set, in ascending way (R38). -/
def candidatesOf (set : Nat) (s : State) : List Candidate := s.hu.candidates.filter fun c => c.place / 4 == set

/-- The candidate of a segment, in its set (R39). -/
def candidateOf (segment : Nat) (s : State) : Option Candidate :=
  (candidatesOf (candidateSet segment) s).find? fun c => c.segment == segment

/-- The table with a candidate put at its place. -/
def putCandidate (c : Candidate) : List Candidate → List Candidate
  | [] => [c]
  | d :: ds =>
    if c.place < d.place then c :: d :: ds
    else if c.place = d.place then c :: ds
    else d :: putCandidate c ds

/-- The Heat Unit stores a candidate, which is a change to C1 (R35). -/
def storeCandidate (c : Candidate) (s : State) : State :=
  touch 1 { s with hu.candidates := putCandidate c s.hu.candidates }

/-- The lowest-numbered empty way of a set, as a place (R40). -/
def emptyWay (set : Nat) (s : State) : Option Nat :=
  (List.range 4).map (fun w => 4 * set + w) |>.find? fun p => !(s.hu.candidates.any fun c => c.place == p)

/-- The candidate of lowest decayed heat, the first of equals (R41). -/
def coldest (s : State) : List Candidate → Option Candidate
  | [] => none
  | c :: cs =>
    match coldest s cs with
    | none => some c
    | some d => if decayedHeat d.heat s < decayedHeat c.heat s then some d else some c

/-- A heat update that reaches an absent segment (R39, R40, R41): the answer Hn and the state after it. -/
def heatAbsent (segment c : Nat) (s : State) : Nat × State :=
  match candidateOf segment s with
  | some r =>
    let r' := updatedRec r.heat c s
    let s1 := storeCandidate { r with heat := r' } s
    (r'.heat, if saturates r.heat c s then heatLimitReached segment s1 else s1)
  | none =>
    if c = 0 then (c, s)
    else
      let fresh : HeatRec := ⟨c, s.hu.epoch, false⟩
      match emptyWay (candidateSet segment) s with
      | some p => (c, storeCandidate ⟨p, segment, fresh⟩ s)
      | none =>
        match coldest s (candidatesOf (candidateSet segment) s) with
        | some v =>
          if decayedHeat v.heat s ≤ c then (c, storeCandidate ⟨v.place, segment, fresh⟩ s)
          else (c, bump .candidateDrops s)
        | none => (c, s)

/-- The map entries with f applied to the entry of a segment. -/
def mapEntry (segment : Nat) (f : Entry → Entry) (es : List Entry) : List Entry :=
  es.map fun e => if e.segment == segment then f e else e

/-- A heat update of a segment that has an entry, through the Segment Map (R35, R36). -/
def heatPresent (e : Entry) (c : Nat) (s : State) : Nat × State :=
  let r' := updatedRec e.heat c s
  let s1 := touch 0 { s with sm.entries := mapEntry e.segment (fun x => { x with heat := r' }) s.sm.entries }
  (r'.heat, if saturates e.heat c s then heatLimitReached e.segment s1 else s1)

/-- The heat update of a READ or WRITE piece (R35): the answer Hn and the state after it. -/
def heatUpdate (segment : Nat) (cmd : Command) (boost : Nat) (s : State) : Nat × State :=
  match lookup segment s with
  | some e => heatPresent e (contribution cmd boost) s
  | none => heatAbsent segment (contribution cmd boost) s

/-- The Heat Unit's answer when an entry is created (R42): the candidate's record as stored, whose way becomes empty, or
heat 0 at the present epoch. -/
def takeCandidate (segment : Nat) (s : State) : HeatRec × State :=
  match candidateOf segment s with
  | some c =>
    (c.heat, touch 1 { s with hu.candidates := s.hu.candidates.filter fun d => d.place != c.place })
  | none => (⟨0, s.hu.epoch, false⟩, s)

/-! ## Reconciliation -/

/-- A heat record with its stamp lowered to the epoch counter where it exceeds it (R43). -/
def clampStamp (epoch : Nat) (r : HeatRec) : HeatRec := { r with stamp := min r.stamp epoch }

/-- The candidates whose segment has a map entry are discarded (R43). -/
def discardMapped (s : State) : State :=
  if s.hu.candidates.any fun c => (lookup c.segment s).isSome then
    touch 1 { s with hu.candidates := s.hu.candidates.filter fun c => (lookup c.segment s).isNone }
  else s

/-- Stamps of candidates above the epoch are lowered to it (R43). -/
def clampCandidates (s : State) : State :=
  if s.hu.candidates.any fun c => decide (s.hu.epoch < c.heat.stamp) then
    touch 1 { s with
      hu.candidates := s.hu.candidates.map fun c => { c with heat := clampStamp s.hu.epoch c.heat } }
  else s

/-- Stamps of entries above the epoch are lowered to it (R43). -/
def clampEntries (s : State) : State :=
  if s.sm.entries.any fun e => decide (s.hu.epoch < e.heat.stamp) then
    touch 0 { s with sm.entries := s.sm.entries.map fun e => { e with heat := clampStamp s.hu.epoch e.heat } }
  else s

/-- The reconciliation of C0 and C1 (R43). -/
def reconcile (s : State) : State := clampEntries (clampCandidates (discardMapped s))

end Sys2Proof.Machine
end

