-- ==== Sys2Proof/Machine/Monitor.lean ====
section
/-! DEFINITION. The Platter Monitor (chapter 7): the work view, spin-up requests, the watch list and the latency window,
Degraded operation, and the quiet timer. -/

namespace Sys2Proof.Machine

/-- A call for a routing pass (R80). -/
def callPass (s : State) : State := { s with ct.passDue := true }

/-! ## The work view and what it drives -/

/-- Every move that exists: the active one, the stack and the queue (R104). -/
def allMoves (s : State) : List Move := s.me.active.toList ++ s.me.stack ++ s.me.queue

/-- The level of a kind of move (R102). -/
def levelOf : MoveKind → Nat
  | .promote => 1
  | .flush => 2
  | .directed => 3
  | .urgent => 4

/-- Whether the platter stands in a stopped period (R152). -/
def atRest (p : PlatterState) : Bool := p == .stopped || p == .stopping

/-- A test of the spin-up condition (R152). -/
def spinUpTest (s : State) : State :=
  if atRest s.pm.state && (s.pm.foregroundWaiting || s.pm.urgentMove) && !s.pm.spinUpRequested then
    occur .spinUpRequest (platterCode s.pm.state) { s with pm.spinUpRequested := true }
  else s

/-- Whether the quiet timer runs (R158). -/
def quietRuns (s : State) : Bool := s.pm.state == .ready && !s.pm.platterWork && !s.pm.movesExist

/-- The quiet timer stands at 0 unless its conditions hold (R158). -/
def quietTest (s : State) : State :=
  if quietRuns s then s else { s with pm.quietTimer := 0, pm.quietReached := false }

/-- The reports of the Platter Port Scheduler and the Migration Engine to the work view (R151), with the tests that each
change of a fact leads to (R152, R158). During a Reset Engine none is made (R137, R147). -/
def reportWork (s : State) : State :=
  if inReset s then s
  else
    let fw := !s.pps.foreground.isEmpty
    let work := fw || !s.pps.background.isEmpty || !s.pps.outstanding.isEmpty
    let moves := !(allMoves s).isEmpty
    let urg := (allMoves s).any fun m => m.kind == .urgent
    let s1 : State :=
      { s with
        pm.foregroundWaiting := fw
        pm.platterWork := work
        pm.movesExist := moves
        pm.urgentMove := urg }
    let s2 := if fw != s.pm.foregroundWaiting || urg != s.pm.urgentMove then spinUpTest s1 else s1
    if work != s.pm.platterWork || moves != s.pm.movesExist then quietTest s2 else s2

/-! ## The watch list and the latency window -/

/-- A platter dispatch reported to the monitor: its record joins the watch list (R153) and the quiet marker is armed
(R159). -/
def watchDispatch (id : Byte) (s : State) : State :=
  { s with
    pm.watch := s.pm.watch ++ [⟨id, false⟩]
    pm.quietArmed := true }

/-- The excursion count after a result that enters the window (R154). -/
def windowCount (service limit count : Nat) : Nat :=
  if limit < service then min 63 (count + 4) else count - 1

/-- The tests for the start and the end of Degraded after the count is adjusted (R155, R156). -/
def degradeTest (s : State) : State :=
  if !s.pm.degraded && decide (s.params.degradeThreshold ≤ s.pm.excursion) then
    callPass (bump .degradedEntries (occur .platterDegraded s.pm.excursion { s with pm.degraded := true }))
  else if s.pm.degraded && s.pm.excursion == 0 then
    callPass (occur .platterRecovered (platterCode s.pm.state) { s with pm.degraded := false })
  else s

/-- A platter result reported with its service time (R153, R154). -/
def watchResult (id : Byte) (service : Nat) (s : State) : State :=
  let interrupted := (s.pm.watch.find? fun w => w.id == id).any WatchRec.interrupted
  let s1 : State := { s with pm.watch := s.pm.watch.eraseP fun w => w.id == id }
  if interrupted then s1
  else degradeTest { s1 with pm.excursion := windowCount service s.params.latencyLimit s.pm.excursion }

/-! ## Report Spindle -/

/-- Leaving READY interrupts every record of the watch list (R153). -/
def interruptWatch (old new : PlatterState) (s : State) : State :=
  if old = .ready && new ≠ .ready then
    { s with pm.watch := s.pm.watch.map fun w => { w with interrupted := true } }
  else s

/-- The stopped-period rule at a change of state (R152). -/
def stoppedPeriod (old new : PlatterState) (s : State) : State :=
  if atRest new then (if atRest old then s else spinUpTest s)
  else { s with pm.spinUpRequested := false }

/-- Whether DegradeClearMask selects a change of state (R157). -/
def clearsDegraded (old new : PlatterState) (mask : BitVec 2) : Bool :=
  new == .ready && ((old == .starting && mask.getLsbD 0) || (old == .parked && mask.getLsbD 1))

/-- The degrade clear mask at a change of state (R157). -/
def degradeClear (old new : PlatterState) (s : State) : State :=
  if clearsDegraded old new s.params.degradeClearMask then
    let s1 : State := { s with pm.excursion := 0 }
    if s.pm.degraded then
      callPass (occur .platterRecovered (platterCode .ready) { s1 with pm.degraded := false })
    else s1
  else s

/-- The change of the platter state within the monitor and its report to the Stream Detector and the Command Tracker (R149,
R150, R159). The report to the Migration Engine follows in the meaning of Report Spindle. -/
def setPlatter (new : PlatterState) (s : State) : State :=
  if new = s.pm.state then s
  else
    let old := s.pm.state
    let s1 : State :=
      { s with
        pm.state := new
        pm.quietArmed := s.pm.quietArmed || new == .ready }
    let s2 := degradeClear old new (stoppedPeriod old new (interruptWatch old new s1))
    let s3 := quietTest s2
    callPass (if new = .stopped then streamEvent .stopped s3 else s3)

/-! ## The quiet timer -/

/-- One millisecond of the quiet timer (R158, R160, R162): while it runs it rises by 1 and stops at QuietTime. -/
def quietTick (s : State) : State :=
  if quietRuns s && !inReset s then
    { s with
      pm.quietTimer := min s.params.quietTime (s.pm.quietTimer + 1)
      pm.quietReached := decide (s.params.quietTime ≤ s.pm.quietTimer + 1) }
  else s

end Sys2Proof.Machine
end

