-- ==== Sys2Proof/Machine/Ports.lean ====
section
/-! DEFINITION. The two port schedulers (chapter 6): placement, the held list, room given out, take-backs, and what an order
names. Dispatch stands in Dispatching.lean and results in Results.lean. -/

namespace Sys2Proof.Machine

/-! ## What an order names -/

/-- The frame an order names, if it names one (R131). -/
def orderFrame (o : Order) : Option Nat :=
  match o.address with
  | .frame f => some f
  | .platter _ => none
  | .region _ => none

/-- Whether an order names frame f. -/
def names (f : Nat) (o : Order) : Bool := orderFrame o == some f

/-- Whether an order's origin is a command piece. -/
def fromPiece (o : Order) : Bool :=
  match o.origin with
  | .piece _ _ _ _ => true
  | .chunk _ _ | .trim _ | .labelUpdate _ _ | .labelRead _ | .checkpoint _ => false

/-- Whether an order is a trim of a frame. -/
def isTrim (o : Order) : Bool :=
  match o.origin with
  | .trim _ => true
  | .piece _ _ _ _ | .chunk _ _ | .labelUpdate _ _ | .labelRead _ | .checkpoint _ => false

/-- Whether an order is a label update. -/
def isLabelUpdate (o : Order) : Bool :=
  match o.origin with
  | .labelUpdate _ _ => true
  | .piece _ _ _ _ | .chunk _ _ | .trim _ | .labelRead _ | .checkpoint _ => false

/-- Whether an order is a chunk order of a move. -/
def isChunkOf (number : Byte) (o : Order) : Bool :=
  match o.origin with
  | .chunk n _ => n == number
  | .piece _ _ _ _ | .trim _ | .labelUpdate _ _ | .labelRead _ | .checkpoint _ => false

/-! ## The orders of the part's own work (R132) -/

/-- The trim order of a frame. -/
def trimOrder (f : Nat) : Order := ⟨.flash, .background, .trim f, .trim, .frame f, none, none, .none, none⟩

/-- A label update order of a frame with the captured generation it carries. -/
def labelUpdateOrder (f : Nat) (captured : Byte) : Order :=
  ⟨.flash, .background, .labelUpdate f captured, .labelWrite, .frame f, none, none, .none, none⟩

/-- The label read order of a frame. -/
def labelReadOrder (f : Nat) : Order :=
  ⟨.flash, .background, .labelRead f, .labelRead, .frame f, none, none, .none, none⟩

/-- A checkpoint order: `blocks` whole blocks from block `first`. -/
def checkpointOrder (request : Nat) (op : Operation) (first blocks : Nat) : Order :=
  ⟨.flash, .background, .checkpoint request, op, .region first, none, some blocks, .checkpoint, none⟩

/-- The order of a request on the held list. -/
def heldOrder : HeldRequest → Order
  | .trim f => trimOrder f
  | .labelUpdate f g => labelUpdateOrder f g

/-! ## Schedulers by port -/

/-- The scheduler of a port. -/
def sched (p : Port) (s : State) : Scheduler :=
  match p with
  | .flash => s.fps
  | .platter => s.pps

/-- The state with a port's scheduler replaced. -/
def setSched (p : Port) (q : Scheduler) (s : State) : State :=
  match p with
  | .flash => { s with fps := q }
  | .platter => { s with pps := q }

/-- PortDepth (R138). -/
def portDepth : Port → Nat
  | .flash => Config.flashDepth
  | .platter => Config.platterDepth

/-- Whether a port's dispatch gate is open (R138, R142, R147). -/
def gateOpen (p : Port) (s : State) : Bool :=
  match p with
  | .flash => !inReset s
  | .platter => s.pm.state == .ready && !inReset s

/-- Whether a Foreground queue has room (R135). -/
def foregroundRoom (p : Port) (s : State) : Bool :=
  decide ((sched p s).foreground.length < Config.foregroundCapacity)

/-- Whether a Background queue has room (R136). -/
def backgroundRoom (p : Port) (s : State) : Bool :=
  decide ((sched p s).background.length < Config.backgroundCapacity)

/-- An order joins the tail of a Foreground queue (R135, R142). -/
def placeForeground (o : Order) (s : State) : State :=
  let q := sched o.port s
  reportWork (setSched o.port { q with foreground := q.foreground ++ [o] } s)

/-- An order joins the tail of a Background queue (R136, R142). -/
def placeBackground (o : Order) (s : State) : State :=
  let q := sched o.port s
  reportWork (setSched o.port { q with background := q.background ++ [o] } s)

/-! ## Trims and label updates -/

/-- The Segment Map asks for the trim of a frame (R21, R136): it joins the Flash Background queue, or the held list when
that queue is full. -/
def askTrim (f : Nat) (s : State) : State :=
  if backgroundRoom .flash s then placeBackground (trimOrder f) s
  else if s.held.contains (.trim f) then s
  else { s with held := s.held ++ [.trim f] }

/-- Whether an order is a label update of frame f. -/
def isLabelUpdateOf (f : Nat) (o : Order) : Bool := isLabelUpdate o && names f o

/-- Whether a held request is a label update of frame f. -/
def heldUpdateOf (f : Nat) : HeldRequest → Bool
  | .labelUpdate g _ => g == f
  | .trim _ => false

/-- The Segment Map asks for a label update of a frame (R136): an earlier update of the frame that is still queued or held
keeps its place and takes the new captured generation. -/
def askLabelUpdate (f : Nat) (captured : Byte) (s : State) : State :=
  if s.fps.background.any (isLabelUpdateOf f) then
    { s with
      fps.background :=
        s.fps.background.map fun o => if isLabelUpdateOf f o then labelUpdateOrder f captured else o }
  else if s.held.any (heldUpdateOf f) then
    { s with held := s.held.map fun h => if heldUpdateOf f h then .labelUpdate f captured else h }
  else if backgroundRoom .flash s then placeBackground (labelUpdateOrder f captured) s
  else { s with held := s.held ++ [.labelUpdate f captured] }

/-! ## Room given out -/

/-- Held requests enter the Flash Background queue while it has room (R136, step 1). -/
def refillHeld (s : State) : State :=
  let n := Config.backgroundCapacity - s.fps.background.length
  { s with
    fps.background := s.fps.background ++ (s.held.take n).map heldOrder
    held := s.held.drop n }

/-- The label reads of a Rebuild that the Flash Background queue has room for (R180). -/
def placeLabelReads (s : State) : State :=
  match s.cu.operation with
  | .rebuilding p =>
    let n := min (Config.backgroundCapacity - s.fps.background.length) (s.lu.frameCount - p.nextFrame)
    { s with
      fps.background := s.fps.background ++ (List.range n).map fun i => labelReadOrder (p.nextFrame + i)
      cu.operation := .rebuilding { p with nextFrame := p.nextFrame + n } }
  | .idle | .quiescing _ _ | .saving _ | .restoreDraining _ | .restoring _ | .rebuildDraining => s

/-- The checkpoint order the Checkpoint Unit has waiting, if any (R170). -/
def waitingOrder : CuOperation → Option Order
  | .saving p => p.waiting
  | .restoring p => p.waiting
  | .idle | .quiescing _ _ | .restoreDraining _ | .rebuildDraining | .rebuilding _ => none

/-- The operation with no order waiting. -/
def clearWaiting : CuOperation → CuOperation
  | .saving p => .saving { p with waiting := none }
  | .restoring p => .restoring { p with waiting := none }
  | .idle => .idle
  | .quiescing r f => .quiescing r f
  | .restoreDraining r => .restoreDraining r
  | .rebuildDraining => .rebuildDraining
  | .rebuilding p => .rebuilding p

/-- The Checkpoint Unit places what it has waiting when the Flash Background queue has room (R136, step 2; R170, R180). -/
def placeCheckpoint (s : State) : State :=
  match waitingOrder s.cu.operation with
  | some o =>
    if backgroundRoom .flash s then
      placeBackground o { s with cu.operation := clearWaiting s.cu.operation }
    else s
  | none => placeLabelReads s

/-- Room on the Flash Background queue is given out to the held list and the Checkpoint Unit (R136). The Migration Engine,
which comes last, takes its share at its own event of R114. -/
def giveRoom (s : State) : State := placeCheckpoint (refillHeld s)

/-! ## Take-backs (R137) -/

/-- Chunk orders of a move leave both Background queues, before their slots are freed (R122, R137). -/
def takeBackChunks (number : Byte) (s : State) : State :=
  reportWork (giveRoom
    { s with
      fps.background := s.fps.background.filter fun o => !isChunkOf number o
      pps.background := s.pps.background.filter fun o => !isChunkOf number o })

/-- The chunks of a move that have an order queued on either Background queue. -/
def queuedChunks (number : Byte) (s : State) : List Nat :=
  (s.fps.background ++ s.pps.background).filterMap fun o =>
    match o.origin with
    | .chunk n c => if n = number then some c else none
    | .piece _ _ _ _ | .trim _ | .labelUpdate _ _ | .labelRead _ | .checkpoint _ => none

/-- Whether an order leaves its queue when frame f leaves BOUND (R22, R137): it names f and is not f's own trim. -/
def leavesWith (f : Nat) (o : Order) : Bool := names f o && !isTrim o

/-- The Flash Port's queues without the orders that leave with frame f, and the held list without its label update. -/
def dropFrameOrders (f : Nat) (s : State) : State :=
  let left := s.fps.foreground.any (leavesWith f)
  let s1 : State :=
    { s with
      fps.foreground := s.fps.foreground.filter fun o => !leavesWith f o
      fps.background := s.fps.background.filter fun o => !leavesWith f o
      held := s.held.filter fun h => !heldUpdateOf f h }
  giveRoom (if left then callPass s1 else s1)

/-- The absorbs of the Flash Foreground queue (R99). -/
def queuedAbsorbs (s : State) : List Order :=
  s.fps.foreground.filter fun o => o.op == .write

/-- Both Foreground queues are emptied by a Link Reset (R99, R137). -/
def dropForeground (s : State) : State :=
  let left := !(s.fps.foreground.isEmpty && s.pps.foreground.isEmpty)
  let s1 := reportWork { s with fps.foreground := [], pps.foreground := [] }
  if left then callPass s1 else s1

/-! ## Conditions the blocks report on -/

/-- Whether an order of a command piece is queued in a Foreground queue or outstanding at a port (R97, R98). -/
def commandOrders (s : State) : Bool :=
  !s.fps.foreground.isEmpty || !s.pps.foreground.isEmpty
    || (s.fps.outstanding ++ s.pps.outstanding).any fun d => fromPiece d.order

/-- Whether a label update is queued, held or outstanding (R171, R195). -/
def labelUpdatesPending (s : State) : Bool :=
  s.fps.background.any isLabelUpdate || s.fps.outstanding.any (fun d => isLabelUpdate d.order)
    || s.held.any fun h => match h with
      | .labelUpdate _ _ => true
      | .trim _ => false

/-- The Segment Map's condition of R171 and R195: no frame is TRIMMING and no label update is pending. -/
def mapQuiet (s : State) : Bool := framesIn .trimming s == 0 && !labelUpdatesPending s

/-- Whether a flash order naming a frame is queued, held or outstanding (R176, R180, R183). -/
def frameOrders (s : State) : Bool :=
  (s.fps.foreground ++ s.fps.background).any (fun o => (orderFrame o).isSome)
    || s.fps.outstanding.any (fun d => (orderFrame d.order).isSome)
    || !s.held.isEmpty

end Sys2Proof.Machine
end

