-- ==== Sys2Proof/Machine/Ranges.lean ====
section
/-! DEFINITION. The Range Comparator (3.1, 3.2): when a slot matches a segment, and the verdict of an evaluation. -/

namespace Sys2Proof.Machine

/-- Whether a slot matches a segment (R54), whatever its enabled field says. -/
def slotMatches (segment : Nat) (r : RangeSlot) : Bool :=
  match r.mode with
  | .inside => decide (128 * segment ≤ r.stop) && decide (r.start ≤ 128 * segment + 127)
  | .outside => decide (128 * segment + 127 < r.start) || decide (r.stop < 128 * segment)

/-- Whether slot i is enabled, has the action, and matches the segment. -/
def slotGoverns (segment : Nat) (a : RangeAction) (ranges : Vector RangeSlot 16) (i : Fin 16) : Bool :=
  ranges[i].enabled && decide (ranges[i].action = a) && slotMatches segment ranges[i]

/-- The lowest-numbered enabled matching slot with an action (R55). -/
def governingSlot (segment : Nat) (a : RangeAction) (ranges : Vector RangeSlot 16) : Option (Fin 16) :=
  (List.finRange 16).find? fun i => slotGoverns segment a ranges i

/-- An evaluation of a segment (R55). BYPASS goes before PIN, PIN before BOOST×4, BOOST×4 before BOOST×2; the boost is found
from the BOOST slots alone. -/
def evaluate (segment : Nat) (s : State) : Verdict :=
  let r := s.rc.ranges
  let g := fun a => governingSlot segment a r
  let boost := if (g .boost4).isSome then 4 else if (g .boost2).isSome then 2 else 1
  match g .bypass, g .pin, g .boost4, g .boost2 with
  | some i, _, _, _ => ⟨.bypass, some i.val, boost⟩
  | none, some i, _, _ => ⟨.pin, some i.val, boost⟩
  | none, none, some i, _ => ⟨.boost4, some i.val, boost⟩
  | none, none, none, some i => ⟨.boost2, some i.val, boost⟩
  | none, none, none, none => ⟨.none, none, boost⟩

/-- Whether a segment is PIN-matched (R55). -/
def pinned (segment : Nat) (s : State) : Bool := (evaluate segment s).action == .pin

end Sys2Proof.Machine
end

