-- ==== Sys2Proof/Machine/Formats.lean ====
section
/-! DEFINITION. Record Formats (chapter 11) on the Response Link, the media ports and the checkpoint region: each record as the
bytes the 2208 sends or stores, and the reading of the checkpoint region. Records on the Command Link stand in Decode.lean. -/

namespace Sys2Proof.Machine

/-! ## Codes -/

/-- A flag as bit 0 of a byte. -/
def flagByte (b : Bool) : Byte := if b then 1 else 0

/-- A flag as bit n of a byte. -/
def flagBit (n : Nat) (b : Bool) : Byte := if b then BitVec.ofNat 8 (2 ^ n) else 0

/-- A component set as a byte (R207). -/
def setByte (v : CompSet) : Byte := v.zeroExtend 8

/-- A sector set as 16 bytes (R207). -/
def sectorBytes (v : SectorSet) : List Byte := leBytes 16 v.toNat

/-- The kind codes of the transactions (11.1). -/
def txnCode : TxnKind → Byte
  | .configure => 1
  | .loadClass => 2
  | .loadRange => 3
  | .setParameter => 4
  | .reportSpindle => 5
  | .setPortLevel => 6
  | .save => 7
  | .restore => 8
  | .rebuild => 9
  | .goOnline => 10
  | .goOffline => 11
  | .prefetch => 12
  | .querySegment => 13
  | .readStatus => 14
  | .initializeComponents => 15
  | .cancelBackground => 16
  | .resetEngine => 17

/-- Status codes of a command completion (11.2). -/
def commandStatusCode : CommandStatus → Byte
  | .good => 0
  | .mediaError => 1
  | .notOnline => 2
  | .tagInUse => 3
  | .lengthInvalid => 4
  | .addressRange => 5

/-- Served-from codes (11.2). -/
def servedCode : ServedFrom → Byte
  | .none => 0
  | .flash => 1
  | .platter => 2
  | .mixed => 3

/-- Status codes of a transaction completion (11.2). -/
def txnStatusCode : TxnStatus → Byte
  | .done => 0
  | .doneClamped => 1
  | .refused => 2
  | .saveFailed => 3
  | .noSpace => 4
  | .noImage => 5
  | .headerInvalid => 6
  | .geometryMismatch => 7

/-- Reason codes (11.2). -/
def reasonCode : Reason → Byte
  | .none => 0
  | .wrongMode => 1
  | .badArgument => 2
  | .busy => 3
  | .unknownKind => 4

/-- Engine Mode codes (11.2). -/
def modeCode : EngineMode → Byte
  | .unconfigured => 0
  | .offline => 1
  | .restoring => 2
  | .rebuilding => 3
  | .online => 4
  | .saving => 5
  | .draining => 6

/-- Long-transaction marker codes (11.2). -/
def markerCode : LongMarker → Byte
  | .none => 0
  | .save => 1
  | .restore => 2
  | .rebuild => 3
  | .goOffline => 4
  | .resetEngine => 5

/-- Layout codes (11.2, 11.4); a header image of layout none is never written. -/
def layoutCode : Option Layout → Byte
  | none => 0
  | some .standard => 1
  | some .compact => 2

/-- Entry state codes (11.2, 11.4). -/
def entryStateCode : EntryState → Byte
  | .fresh => 0
  | .inbound => 1
  | .clean => 2
  | .dirty => 3
  | .flushing => 4

/-- Move state codes, in the order of R103. -/
def moveStateCode : MoveState → Byte
  | .pending => 0
  | .active => 1
  | .suspended => 2
  | .paused => 3
  | .ended => 4

/-- Verdict action codes (11.2). -/
def actionCode : VerdictAction → Byte
  | .none => 0
  | .pin => 1
  | .bypass => 2
  | .boost2 => 3
  | .boost4 => 4

/-- Range action codes (11.1). -/
def rangeActionCode : RangeAction → Byte
  | .pin => 0
  | .bypass => 1
  | .boost2 => 2
  | .boost4 => 3

/-- Match mode codes (11.1). -/
def matchModeCode : MatchMode → Byte
  | .inside => 0
  | .outside => 1

/-- EpochSource codes (11.1). -/
def epochSourceCode : EpochSource → Nat
  | .commands => 0
  | .time => 1
  | .either => 2

/-- DecayMode codes (11.1). -/
def decayModeCode : DecayMode → Nat
  | .halve => 0
  | .gentle => 1

/-- Operation codes (11.3). -/
def operationCode : Operation → Byte
  | .read => 0
  | .write => 1
  | .trim => 2
  | .labelWrite => 3
  | .labelRead => 4

/-- The validity code of an entry (11.2, 11.4). -/
def validityCode : Validity → Byte
  | .full => 0
  | .part _ => 1

/-! ## Response Link (11.2) -/

/-- n free bytes from an index on: fields the book names but states no value for (log entry 3). -/
def freeBytes (index n : Nat) : List Byte := (List.range n).map fun i => Config.unstatedByte (index + i)

/-- A move number or marker as 2 bytes, 0xFFFF for none (11.2). -/
def numberBytes : Option Byte → List Byte
  | some n => leBytes 2 n.toNat
  | none => leBytes 2 0xFFFF

/-- The 36 bytes of an entry in a Query Segment completion (11.2). -/
def entryReport (e : Entry) (decayed : Nat) : List Byte :=
  [entryStateCode e.state, validityCode e.validity] ++ leBytes 4 e.frame ++ sectorBytes (validSet e)
    ++ [e.generation] ++ leBytes 2 e.heat.heat ++ leBytes 4 e.heat.stamp ++ [flagByte e.heat.saturated]
    ++ leBytes 1 e.absorbs ++ leBytes 1 e.flushFailures ++ numberBytes e.marker ++ leBytes 2 decayed

/-- The results of a Query Segment (11.2). Fields of an absent entry, candidate or move are free values from `index` on. -/
def segmentBytes (index : Nat) (r : SegmentReport) : List Byte :=
  (match r.entry with
    | some (e, decayed) => 1 :: entryReport e decayed
    | none => 0 :: freeBytes index 36)
  ++ (match r.candidate with
    | some (h, decayed) =>
      1 :: leBytes 2 h.heat ++ leBytes 4 h.stamp ++ [flagByte h.saturated] ++ leBytes 2 decayed
    | none => 0 :: freeBytes (index + 36) 9)
  ++ (match r.move with
    | some (n, k, st) =>
      numberBytes (some n) ++ [BitVec.ofNat 8 (levelOf k), BitVec.ofNat 8 (levelOf k), moveStateCode st]
    | none => numberBytes none ++ freeBytes (index + 45) 3)
  ++ [actionCode r.verdict.action, BitVec.ofNat 8 (r.verdict.governing.getD 0xFF), BitVec.ofNat 8 r.verdict.boost]

/-- How many free values one Query Segment completion numbers. -/
def segmentFreeValues : Nat := 48

/-- The results of a Read Status (11.2). -/
def statusBytes (r : StatusReport) : List Byte :=
  [modeCode r.mode, markerCode r.marker, BitVec.ofNat 8 (platterCode r.platter),
    flagBit 0 r.degraded ||| flagBit 1 r.urgent ||| flagBit 2 r.heatLimit ||| flagBit 3 r.moveSpill
      ||| flagBit 4 r.queueDrop]
    ++ leBytes 4 r.free ++ leBytes 4 r.bound ++ leBytes 4 r.trimming ++ leBytes 4 r.retired ++ leBytes 4 r.dirtyCount
    ++ leBytes 1 r.queueLength ++ leBytes 1 r.stackDepth ++ leBytes 4 r.epoch

/-- The results of a transaction completion, packed from byte 5 (11.2). -/
def resultBytes (index : Nat) : TxnResults → List Byte
  | .none => []
  | .configured fc l high low reserve =>
    leBytes 4 fc ++ [layoutCode (some l)] ++ leBytes 4 high ++ leBytes 4 low ++ leBytes 4 reserve
  | .rangeEnd stop => leBytes 8 stop
  | .value v => leBytes 4 v
  | .dirtyPair high low => leBytes 4 high ++ leBytes 4 low
  | .level l => leBytes 1 l
  | .saved set full => [setByte set, flagByte full]
  | .restored loaded failed lost => [setByte loaded, setByte failed, flagByte lost]
  | .rebuilt entries dirty free trimming retired =>
    leBytes 4 entries ++ leBytes 4 dirty ++ leBytes 4 free ++ leBytes 4 trimming ++ leBytes 4 retired
  | .count n => leBytes 1 n
  | .segment r => segmentBytes index r
  | .status r => statusBytes r

/-- A completion as its record on the Response Link (11.2). -/
def completionBytes (index : Nat) : Completion → List Byte
  | .command tag status served =>
    padTo 8 [0x11, BitVec.ofNat 8 tag.val, commandStatusCode status, servedCode served]
  | .transaction kind seq status reason results =>
    padTo 64 ([0x18, kind, seq, txnStatusCode status, reasonCode reason] ++ resultBytes index results)

/-- How many free values a completion numbers when it is sent. -/
def freeValuesOf : Completion → Nat
  | .command _ _ _ => 0
  | .transaction _ _ _ _ results =>
    match results with
    | .segment _ => segmentFreeValues
    | .none | .configured _ _ _ _ _ | .rangeEnd _ | .value _ | .dirtyPair _ _ | .level _ | .saved _ _
    | .restored _ _ _ | .rebuilt _ _ _ _ _ | .count _ | .status _ => 0

/-- A notice as its record on the Response Link (11.2). -/
def noticeBytes (n : Notice) : List Byte :=
  [0x19, BitVec.ofNat 8 (n.kind.index.val + 1)] ++ leBytes 2 n.occurrences ++ leBytes 4 n.time.toNat
    ++ leBytes 8 n.argument

/-! ## Media ports (11.3) -/

/-- A frame label as its 32 bytes (11.3). -/
def labelBytes (l : FrameLabel) : List Byte :=
  leBytes 8 l.segment.toNat ++ leBytes 6 l.writeSeq.toNat ++ [flagBit 0 l.dirty ||| flagBit 1 l.full, l.generation]
    ++ sectorBytes l.validSet

/-- The target code and address of an order (11.3): the base LBA, the frame number or the first block. -/
def addressBytes : Address → Byte × List Byte
  | .platter segment => (0, leBytes 8 (128 * segment))
  | .frame f => (1, leBytes 8 f)
  | .region block => (2, leBytes 8 block)

/-- The buffer code, staging slot and host handle of an order (11.3). A slot or a handle that the order does not carry is
written as zero (DESIGN CHOICE, log entry 30). -/
def bufferBytes : BufferRef → Byte × Byte × List Byte
  | .none => (0, 0, zeros 4)
  | .host h => (1, 0, leBytes 4 h.toNat)
  | .staging slot => (2, BitVec.ofNat 8 slot, zeros 4)
  | .checkpoint => (3, 0, zeros 4)

/-- A dispatched order as its record on the port: 96 bytes with a label, 64 without (11.3). The sector set of an order that
carries none is written as zero (DESIGN CHOICE, log entry 30). -/
def orderBytes (d : Dispatched) : List Byte :=
  let a := addressBytes d.order.address
  let b := bufferBytes d.order.buffer
  let extent :=
    match d.order.blocks with
    | some n => padTo 16 (leBytes 4 n)
    | none => sectorBytes (d.order.sectors.getD 0)
  let first := [d.id, operationCode d.order.op, a.1, 0] ++ a.2 ++ extent ++ [b.1, b.2.1, 0, 0] ++ b.2.2
  match d.label with
  | some l => padTo 96 (first ++ labelBytes l)
  | none => padTo 64 first

/-! ## CRC-32 (R209) -/

/-- One bit of the reflected CRC register. -/
def crcBit (r : BitVec 32) : BitVec 32 := if r.getLsbD 0 then (r >>> 1) ^^^ 0xEDB88320 else r >>> 1

/-- One byte entered into the CRC register, least significant bit first. -/
def crcByte (r : BitVec 32) (b : Byte) : BitVec 32 :=
  crcBit (crcBit (crcBit (crcBit (crcBit (crcBit (crcBit (crcBit (r ^^^ b.zeroExtend 32))))))))

/-- The CRC-32 of a body (R209). -/
def crc32 (body : List Byte) : BitVec 32 := ~~~(body.foldl crcByte (BitVec.allOnes 32))

/-! ## The saved form of C0 (R167) and the record bodies (11.4) -/

/-- What a C0 record says of the map: the DIRTY entries in saved Dirty List order, the CLEAN entries in Reclaim List order,
and the frames of the three kinds. -/
structure SavedMap where
  dirty    : List Entry
  clean    : List Entry
  free     : List Nat
  trimming : List Nat
  retired  : List Nat
  writeSeq : BitVec 48
  deriving DecidableEq, Repr

/-- The frames in a state, ascending. -/
def framesAt (st : FrameState) (s : State) : List Nat :=
  (List.range s.sm.frames.length).filter fun f => frameState f s == some st

/-- The FLUSHING entries in ascending frame number (R167). -/
def flushingEntries (s : State) : List Entry :=
  (List.range s.sm.frames.length).filterMap fun f => (boundEntry f s).filter fun e => e.state == .flushing

/-- Whether a frame holds an INBOUND entry. -/
def holdsInbound (f : Nat) (s : State) : Bool := (boundEntry f s).any fun e => e.state == .inbound

/-- The saved form of the map (R167). -/
def savedMap (s : State) : SavedMap :=
  { dirty := flushingEntries s ++ s.sm.dirty.filterMap fun seg => lookup seg s
    clean := s.sm.reclaim.filterMap fun seg => lookup seg s
    free := s.sm.freeList
    trimming := (List.range s.sm.frames.length).filter fun f =>
      frameState f s == some .trimming || holdsInbound f s
    retired := framesAt .retired s
    writeSeq := s.sm.writeSeq }

/-- An entry of a C0 body (11.4). -/
def savedEntryBytes (state : Byte) (e : Entry) : List Byte :=
  padTo 32 (leBytes 8 e.segment ++ leBytes 4 e.frame ++ [state, validityCode e.validity, e.generation,
    flagByte e.heat.saturated] ++ leBytes 2 e.heat.heat ++ leBytes 4 e.heat.stamp ++ leBytes 1 e.flushFailures)
  ++ (match e.validity with
    | .full => []
    | .part v => sectorBytes v)

/-- The C0 body (11.4). -/
def mapBody (m : SavedMap) : List Byte :=
  m.dirty.flatMap (savedEntryBytes 3) ++ m.clean.flatMap (savedEntryBytes 2)
    ++ (m.free ++ m.trimming ++ m.retired).flatMap (leBytes 4)

/-- A way of the C1 body (11.4): an empty way is EMPTY and zero elsewhere. -/
def wayBytes : Option Candidate → List Byte
  | some c =>
    leBytes 8 c.segment ++ leBytes 2 c.heat.heat ++ leBytes 4 c.heat.stamp ++ [flagByte c.heat.saturated, 0]
  | none => leBytes 8 (2 ^ 64 - 1) ++ zeros 8

/-- The ways from a place on, `n` of them, given the candidates in ascending place. -/
def ways : Nat → Nat → List Candidate → List (Option Candidate)
  | 0, _, _ => []
  | n + 1, p, [] => none :: ways n (p + 1) []
  | n + 1, p, c :: cs => if c.place = p then some c :: ways n (p + 1) cs else none :: ways n (p + 1) (c :: cs)

/-- The C1 body (11.4). -/
def heatBody (s : State) : List Byte := (ways 4096 0 s.hu.candidates).flatMap wayBytes

/-- A slot of the C2 body (11.4). -/
def slotBytes (r : RangeSlot) : List Byte :=
  padTo 32 (padTo 8 [flagByte r.enabled, matchModeCode r.mode, rangeActionCode r.action] ++ leBytes 8 r.start
    ++ leBytes 8 r.stop)

/-- A class record of the C3 body (11.4). -/
def classBytes (c : ClassRec) : List Byte :=
  padTo 8 (leBytes 1 c.readWeight ++ leBytes 1 c.writeWeight ++ [flagBit 0 c.streamsCount ||| flagBit 1 c.noPromote])

/-- The value of each parameter in argument form, ids 1 to 24 in order (R191, 11.1). -/
def parameterValues (p : Params) : List Nat :=
  [p.admitThreshold, p.hysteresis, p.scanWindow, p.freeReserve, p.dirtyHigh, p.dirtyLow, epochSourceCode p.epochSource,
    p.epochSpan, decayModeCode p.decayMode, p.streamThreshold, p.streamClearMask.toNat, p.latencyLimit,
    p.degradeThreshold, p.degradeClearMask.toNat, p.quietTime]
  ++ p.noticeSkip.toList ++ [p.enabled.toNat]

/-- The C3 body (11.4): the classes, then 64 words of which word i holds parameter i. -/
def parameterBody (s : State) : List Byte :=
  s.rc.classes.toList.flatMap classBytes ++ padTo 256 (zeros 4 ++ (parameterValues s.params).flatMap (leBytes 4))

/-- A record of the C4 body (11.4). -/
def streamBytes (r : StreamRec) : List Byte :=
  padTo 8 ([flagByte r.valid] ++ leBytes 1 r.rank ++ leBytes 2 r.run) ++ leBytes 8 r.next

/-- The body of a component's record as its contents stand (R166, 11.4). -/
def recordBody (c : Fin 6) (s : State) : List Byte :=
  match c with
  | 0 => mapBody (savedMap s)
  | 1 => heatBody s
  | 2 => s.rc.ranges.toList.flatMap slotBytes
  | 3 => parameterBody s
  | 4 => s.streams.toList.flatMap streamBytes
  | 5 => s.stats.toList.flatMap (leBytes 4)

/-- The bytes an entry takes in a C0 body (R166). -/
def savedEntryLength (e : Entry) : Nat :=
  match e.validity with
  | .full => 32
  | .part _ => 48

/-- The length of a component's body (R166). -/
def bodyLength (c : Fin 6) (s : State) : Nat :=
  match c with
  | 0 =>
    let m := savedMap s
    ((m.dirty ++ m.clean).map savedEntryLength).sum + 4 * (m.free.length + m.trimming.length + m.retired.length)
  | 1 => 16 * 4096
  | 2 => 16 * 32
  | 3 => 16 * 8 + 256
  | 4 => 8 * 16
  | 5 => 32 * 4

/-- The length of a component's record, head included (R166). -/
def recordLength (c : Fin 6) (s : State) : Nat := 64 + bodyLength c s

/-- What a record head carries for its component alone (11.4), from byte 16. -/
def headTail (c : Fin 6) (s : State) : List Byte :=
  match c with
  | 0 =>
    let m := savedMap s
    leBytes 4 (m.dirty.length + m.clean.length) ++ leBytes 4 m.free.length ++ leBytes 4 m.trimming.length
      ++ leBytes 4 m.retired.length ++ leBytes 6 m.writeSeq.toNat
  | 1 => leBytes 4 s.hu.epoch
  | 2 | 3 | 4 | 5 => []

/-- A component's record: its head and its body (R166, 11.4). -/
def recordBytes (c : Fin 6) (sequence : Nat) (s : State) : List Byte :=
  let body := recordBody c s
  padTo 64 (padTo 4 [BitVec.ofNat 8 c.val] ++ leBytes 4 sequence ++ leBytes 4 (recordLength c s)
    ++ leBytes 4 (crc32 body).toNat ++ headTail c s) ++ body

/-! ## The header (11.4) -/

/-- The signature of a header (11.4). -/
def headerSignature : List Byte := [0x47, 0x46, 0x43, 0x50, 0x32, 0x32, 0x30, 0x38]

/-- The header entry of a component: zero unless the component is present (R208, 11.4). -/
def headerEntryBytes (h : Header) (c : Fin 6) : List Byte :=
  if CompSet.has h.present c then
    leBytes 4 h.entries[c].sequence ++ leBytes 4 h.entries[c].start ++ leBytes 4 h.entries[c].length
      ++ leBytes 4 h.entries[c].crc.toNat
  else zeros 16

/-- A header as its 128 bytes; the rest of block 0 is zero (11.4). -/
def headerBytes (h : Header) : List Byte :=
  padTo 32 (padTo 12 (headerSignature ++ [layoutCode h.layout, setByte h.present]) ++ leBytes 4 h.sequence
    ++ leBytes 4 h.frameCount ++ leBytes 6 h.writeSeq.toNat)
  ++ (List.finRange 6).flatMap (headerEntryBytes h)

/-- Bytes padded to whole checkpoint blocks (R166). -/
def wholeBlocks (bs : List Byte) : List Byte := padTo (4096 * blocksOf bs.length) bs

/-! ## Reading the checkpoint region -/

/-- Whether the bytes lo..hi−1 are zero. -/
def allZero (data : List Byte) (lo hi : Nat) : Bool := ((data.drop lo).take (hi - lo)).all fun b => b == 0

/-- The layout a header's byte names. -/
def layoutOf (b : Byte) : Option Layout := if b = 1 then some .standard else if b = 2 then some .compact else none

/-- Component c's entry as a header's bytes give it. -/
def headerEntry (data : List Byte) (c : Fin 6) : RecordEntry :=
  let o := 32 + 16 * c.val
  ⟨readLE data o 4, readLE data (o + 4) 4, readLE data (o + 8) 4, BitVec.ofNat 32 (readLE data (o + 12) 4)⟩

/-- A header read from block 0 (11.4). -/
def readHeader (data : List Byte) : Header :=
  { layout := layoutOf (data.getD 8 0)
    sequence := readLE data 12 4
    frameCount := readLE data 16 4
    present := (data.getD 9 0).truncate 6
    entries := Vector.ofFn (headerEntry data)
    writeSeq := BitVec.ofNat 48 (readLE data 20 6) }

/-- Whether the fields of a header that are reserved are zero (R208): the gaps, the rest of the block, and the entries of
components absent from the present set. -/
def headerReservedClear (data : List Byte) : Bool :=
  allZero data 10 12 && allZero data 26 32 && allZero data 128 4096
    && (List.finRange 6).all fun c =>
      (data.getD 9 0).getLsbD c.val || allZero data (32 + 16 * c.val) (48 + 16 * c.val)

/-- Whether a header's own fields are valid (R176): reserved fields, layout, present bits and record sequences. -/
def headerValid (data : List Byte) : Bool :=
  let h := readHeader data
  headerReservedClear data && h.layout.isSome && !(data.getD 9 0).getLsbD 6 && !(data.getD 9 0).getLsbD 7
    && (compList h.present).all fun c => decide (h.entries[c].sequence ≤ h.sequence)

/-- Whether a header's signature is right (R176). -/
def signatureRight (data : List Byte) : Bool := data.take 8 == headerSignature

/-- The reserved fields of a record head (11.4). -/
def headReservedClear (c : Fin 6) (data : List Byte) : Bool :=
  allZero data 1 4
    && (match c with
      | 0 => allZero data 38 64
      | 1 => allZero data 20 64
      | 2 | 3 | 4 | 5 => allZero data 16 64)

/-- Whether a record read for a component is the one its header entry names, and whole (R177, R208). -/
def recordMatches (c : Fin 6) (e : RecordEntry) (data : List Byte) : Bool :=
  let body := (data.take e.length).drop 64
  data.getD 0 0 == BitVec.ofNat 8 c.val && headReservedClear c data && readLE data 4 4 == e.sequence
    && readLE data 8 4 == e.length && decide (e.length ≤ data.length)
    && crc32 body == e.crc && BitVec.ofNat 32 (readLE data 12 4) == e.crc

/-! ## Reading the record bodies -/

/-- n words of 4 bytes from the front of a list: the words and what follows, none where the list is too short. -/
def readWords : Nat → List Byte → Option (List Nat × List Byte)
  | 0, bs => some ([], bs)
  | n + 1, bs =>
    if (bs.drop 3).isEmpty then none
    else (readWords n (bs.drop 4)).map fun r => (readLE bs 0 4 :: r.1, r.2)

/-- The entry at the front of a C0 body and what follows it (R178, 11.4): none where a check of R178 fails. -/
def readEntry (bs : List Byte) : Option (Entry × List Byte) :=
  let state := bs.getD 12 0
  let validity := bs.getD 13 0
  let rest := bs.drop 32
  let set := BitVec.ofNat 128 (readLE rest 0 16)
  if (bs.drop 31).isEmpty || (state != 2 && state != 3) || (validity != 0 && validity != 1)
      || decide (3 < (bs.getD 22 0).toNat) || (validity == 1 && (set == 0 || (rest.drop 15).isEmpty)) then none
  else
    some
      ({ segment := readLE bs 0 8
         frame := readLE bs 8 4
         state := if state = 3 then .dirty else .clean
         validity := if validity = 0 then .full else validityOf set
         generation := bs.getD 14 0
         heat := ⟨readLE bs 16 2, readLE bs 18 4, (bs.getD 15 0).getLsbD 0⟩
         absorbs := 0
         flushFailures := (bs.getD 22 0).toNat
         marker := none },
        if validity = 0 then rest else rest.drop 16)

/-- n entries from the front of a C0 body. -/
def readEntries : Nat → List Byte → Option (List Entry × List Byte)
  | 0, bs => some ([], bs)
  | n + 1, bs =>
    match readEntry bs with
    | none => none
    | some (e, rest) => (readEntries n rest).map fun r => (e :: r.1, r.2)

/-- The map that a C0 record holds, none where the body ends before all that its counts give (11.4; DEDUCED, log entry 15); what
follows them is reserved and ignored (R208). -/
def readMap (data body : List Byte) : Option SavedMap :=
  match readEntries (readLE data 16 4) body with
  | none => none
  | some (es, r1) =>
    match readWords (readLE data 20 4) r1 with
    | none => none
    | some (free, r2) =>
      match readWords (readLE data 24 4) r2 with
      | none => none
      | some (trimming, r3) =>
        match readWords (readLE data 28 4) r3 with
        | none => none
        | some (retired, _) =>
          some
            { dirty := es.filter fun e => e.state == .dirty
              clean := es.filter fun e => e.state == .clean
              free := free
              trimming := trimming
              retired := retired
              writeSeq := BitVec.ofNat 48 (readLE data 32 6) }

/-- Whether the contents of a C0 record are consistent (R178): every frame is described exactly once and each entry names a
distinct segment within the platter. The checks of a single entry are made as it is read. -/
def mapConsistent (m : SavedMap) (s : State) : Bool :=
  let es := m.dirty ++ m.clean
  let frames := es.map Entry.frame ++ m.free ++ m.trimming ++ m.retired
  frames.length == s.lu.frameCount && (List.range s.lu.frameCount).all (fun f => frames.contains f)
    && decide (es.map Entry.segment).Nodup && es.all fun e => decide (e.segment ≤ lastSegment s)

/-- The candidates of a C1 body from a place on (11.4); a way whose segment field is all ones is empty. -/
def readWays : Nat → Nat → List Byte → List Candidate
  | 0, _, _ => []
  | n + 1, p, bs =>
    let rest := readWays n (p + 1) (bs.drop 16)
    if readLE bs 0 8 = 2 ^ 64 - 1 then rest
    else ⟨p, readLE bs 0 8, readLE bs 8 2, readLE bs 10 4, (bs.getD 14 0).getLsbD 0⟩ :: rest

/-- Whether the contents of a C1 record are consistent (R178). -/
def heatConsistent (cs : List Candidate) : Bool :=
  cs.all (fun c => candidateSetOf c.segment == c.place / 4) && decide (cs.map Candidate.segment).Nodup
where
  /-- The set of a segment (R38). -/
  candidateSetOf (segment : Nat) : Nat := segment % 1024

/-- The choices of a mode byte and an action byte, where each names one (11.1). -/
def matchModeOf (b : Byte) : Option MatchMode := if b = 0 then some .inside else if b = 1 then some .outside else none

/-- The action an action byte names (11.1). -/
def rangeActionOf (b : Byte) : Option RangeAction :=
  if b = 0 then some .pin
  else if b = 1 then some .bypass
  else if b = 2 then some .boost2
  else if b = 3 then some .boost4
  else none

/-- The action of a code 0..3. -/
def rangeActionAt (c : Fin 4) : RangeAction :=
  match c with
  | 0 => .pin
  | 1 => .bypass
  | 2 => .boost2
  | 3 => .boost4

/-- A slot of a C2 body at an offset (11.4). A mode or action byte that names no choice has no stated meaning in a record: it
loads as a free value (log entry 4). -/
def readSlot (bs : List Byte) : RangeSlot :=
  { enabled := (bs.getD 0 0).getLsbD 0
    start := readLE bs 8 8
    stop := readLE bs 16 8
    mode := (matchModeOf (bs.getD 1 0)).getD (if Config.savedModeIsOutside (bs.getD 1 0) then .outside else .inside)
    action := (rangeActionOf (bs.getD 2 0)).getD (rangeActionAt (Config.savedActionCode (bs.getD 2 0))) }

/-- A class record of a C3 body (11.4). -/
def readClass (bs : List Byte) : ClassRec :=
  ⟨(bs.getD 0 0).toNat, (bs.getD 1 0).toNat, (bs.getD 2 0).getLsbD 0, (bs.getD 2 0).getLsbD 1⟩

/-- A stream record of a C4 body (11.4), before its rank is renumbered; an invalid record holds no rank (R62). -/
def readStream (bs : List Byte) : StreamRec :=
  let valid := (bs.getD 0 0).getLsbD 0
  ⟨valid, readLE bs 8 8, readLE bs 2 2, if valid then (bs.getD 1 0).toNat else 0⟩

end Sys2Proof.Machine
end

