-- ==== Sys2Proof/Machine/Parameters.lean ====
section
/-! DEFINITION. The parameters of Set Parameter (9.3): how each value is clamped and stored. A load of component C3 stores its
saved values in the same way (R178, R191). -/

namespace Sys2Proof.Machine

/-- What storing one parameter answers: the parameters, the results of the completion, and whether the value was stored as
sent. -/
structure Stored where
  params  : Params
  results : TxnResults
  asSent  : Bool
  deriving DecidableEq, Repr

/-- A value clamped to a range (R191). -/
def clampTo (lo hi v : Nat) : Nat := max lo (min hi v)

/-- A numeric parameter stored in a range: `put` writes the stored value (R191). -/
def storeNumber (lo hi v : Nat) (put : Nat → Params) : Stored :=
  ⟨put (clampTo lo hi v), .value (clampTo lo hi v), clampTo lo hi v == v⟩

/-- A set parameter of w members: members it does not define are dropped (R191). -/
def storeSet (w v : Nat) (put : BitVec w → Params) : Stored :=
  ⟨put (BitVec.ofNat w v), .value (v % 2 ^ w), v % 2 ^ w == v⟩

/-- The EpochSource that a value names (11.1). -/
def epochSourceOf (v : Nat) : Option EpochSource :=
  if v = 0 then some .commands else if v = 1 then some .time else if v = 2 then some .either else none

/-- The DecayMode that a value names (11.1). -/
def decayModeOf (v : Nat) : Option DecayMode := if v = 0 then some .halve else if v = 1 then some .gentle else none

/-- EpochSource: a value that names no choice is replaced by TIME (R191). -/
def storeEpochSource (v : Nat) (p : Params) : Stored :=
  match epochSourceOf v with
  | some c => ⟨{ p with epochSource := c }, .value v, true⟩
  | none => ⟨{ p with epochSource := .time }, .value (epochSourceCode .time), false⟩

/-- DecayMode: a value that names no choice is replaced by HALVE (R191). -/
def storeDecayMode (v : Nat) (p : Params) : Stored :=
  match decayModeOf v with
  | some c => ⟨{ p with decayMode := c }, .value v, true⟩
  | none => ⟨{ p with decayMode := .halve }, .value (decayModeCode .halve), false⟩

/-- DirtyHigh: clamped to 1..FrameCount, and DirtyLow follows it down (R191). -/
def storeDirtyHigh (frameCount v : Nat) (p : Params) : Stored :=
  let high := clampTo 1 frameCount v
  if high ≤ p.dirtyLow then
    ⟨{ p with dirtyHigh := high, dirtyLow := high - 1 }, .dirtyPair high (high - 1), false⟩
  else if high = v then ⟨{ p with dirtyHigh := high }, .value high, true⟩
  else ⟨{ p with dirtyHigh := high }, .dirtyPair high p.dirtyLow, false⟩

/-- NoticeSkip of the kind of an index (R191, R202). -/
def storeSkip (k : Fin 8) (v : Nat) (p : Params) : Stored :=
  storeNumber 0 15 v fun x => { p with noticeSkip := p.noticeSkip.set k x }

/-- DirtyHigh, DirtyLow and FreeReserve as derived from FrameCount (R189, step 3). -/
def Params.derive (p : Params) (frameCount : Nat) : Params :=
  { p with
    dirtyHigh := 3 * frameCount / 4
    dirtyLow := frameCount / 2
    freeReserve := min 64 (frameCount / 16) }

/-- Storing the parameter of an id (R191): none where the id names no parameter. -/
def storeParameter (frameCount id v : Nat) (p : Params) : Option Stored :=
  match id with
  | 1 => some (storeNumber 1 65535 v fun x => { p with admitThreshold := x })
  | 2 => some (storeNumber 0 65535 v fun x => { p with hysteresis := x })
  | 3 => some (storeNumber 1 16 v fun x => { p with scanWindow := x })
  | 4 => some (storeNumber 0 frameCount v fun x => { p with freeReserve := x })
  | 5 => some (storeDirtyHigh frameCount v p)
  | 6 => some (storeNumber 0 (p.dirtyHigh - 1) v fun x => { p with dirtyLow := x })
  | 7 => some (storeEpochSource v p)
  | 8 => some (storeNumber 1 65535 v fun x => { p with epochSpan := x })
  | 9 => some (storeDecayMode v p)
  | 10 => some (storeNumber 256 65535 v fun x => { p with streamThreshold := x })
  | 11 => some (storeSet 4 v fun x => { p with streamClearMask := x })
  | 12 => some (storeNumber 10 5000 v fun x => { p with latencyLimit := x })
  | 13 => some (storeNumber 8 63 v fun x => { p with degradeThreshold := x })
  | 14 => some (storeSet 2 v fun x => { p with degradeClearMask := x })
  | 15 => some (storeNumber 100 60000 v fun x => { p with quietTime := x })
  | 16 => some (storeSkip 0 v p)
  | 17 => some (storeSkip 1 v p)
  | 18 => some (storeSkip 2 v p)
  | 19 => some (storeSkip 3 v p)
  | 20 => some (storeSkip 4 v p)
  | 21 => some (storeSkip 5 v p)
  | 22 => some (storeSkip 6 v p)
  | 23 => some (storeSkip 7 v p)
  | 24 => some (storeSet 6 v fun x => { p with enabled := x })
  | _ => none

/-- The parameters with saved words stored one after another, ids ascending from `id` (R178). -/
def loadParameters (frameCount : Nat) : Nat → List Nat → Params → Params
  | _, [], p => p
  | id, v :: vs, p =>
    loadParameters frameCount (id + 1) vs ((storeParameter frameCount id v p).map Stored.params |>.getD p)

end Sys2Proof.Machine
end

