-- ==== Sys2Proof/Machine/Pieces.lean ====
section
/-! DEFINITION. The Command Tracker's records (4.3 to 4.8): splitting, overlap hold, order parts, reissue, the end of pieces
and commands, and FLUSH_CACHE. Routing stands in Routing.lean. -/

namespace Sys2Proof.Machine

/-! ## Access -/

/-- The command in the slot of a tag. -/
def commandOf (tag : Fin 32) (s : State) : Option Command := s.ct.slots[tag].command

/-- The slot of a tag with f applied to its command. -/
def modifyCommand (tag : Fin 32) (f : Command → Command) (s : State) : State :=
  { s with ct.slots := s.ct.slots.set tag { s.ct.slots[tag] with command := s.ct.slots[tag].command.map f } }

/-- The command with f applied to its piece of a segment. -/
def mapPiece (segment : Nat) (f : Piece → Piece) (c : Command) : Command :=
  { c with pieces := c.pieces.map fun p => if p.segment == segment then f p else p }

/-- The state with f applied to one piece. -/
def modifyPiece (tag : Fin 32) (segment : Nat) (f : Piece → Piece) (s : State) : State :=
  modifyCommand tag (mapPiece segment f) s

/-- A piece of a tracked command. -/
def pieceOf (tag : Fin 32) (segment : Nat) (s : State) : Option Piece :=
  (commandOf tag s).bind fun c => c.pieces.find? fun p => p.segment == segment

/-- The commands of the Arrival List that stand before a tag, oldest first (R74). -/
def earlierCommands (tag : Fin 32) (s : State) : List Command :=
  (s.ct.arrival.takeWhile fun t => t != tag).filterMap fun t => commandOf t s

/-- Every slot with f applied to each piece of its command. -/
def mapPieces (f : Fin 32 → Command → Piece → Piece) (s : State) : State :=
  { s with
    ct.slots := Vector.ofFn fun t =>
      { s.ct.slots[t] with
        command := s.ct.slots[t].command.map fun c => { c with pieces := c.pieces.map (f t c) } } }

/-- Whether a piece has ended (R76). -/
def ended (p : Piece) : Bool := p.state == .done || p.state == .failed

/-- Whether a kind of command changes sectors (R77). -/
def changes (k : CommandKind) : Bool := k == .write || k == .trim

/-! ## Overlap hold -/

/-- Whether a piece of a command is held by an earlier command (R77). -/
def overlapHeld (tag : Fin 32) (kind : CommandKind) (p : Piece) (s : State) : Bool :=
  (earlierCommands tag s).any fun y =>
    (changes kind || changes y.kind)
      && y.pieces.any fun q => q.segment == p.segment && overlaps q.sectors p.sectors && !ended q

/-- The wait reason of a piece that leaves HELD (R79, R97). -/
def releasedReason (s : State) : WaitReason := if s.lu.mode = .saving then .save else .route

/-- Whether any piece is HELD in a way for which a test holds no longer. -/
def anyReleased (test : Fin 32 → Command → Piece → Bool) (s : State) : Bool :=
  (List.finRange 32).any fun t =>
    match commandOf t s with
    | some c => c.pieces.any (test t c)
    | none => false

/-- The pieces for which a test holds become WAITING, and a routing pass is called for (R79, R80). -/
def releaseWhere (test : Fin 32 → Command → Piece → Bool) (s : State) : State :=
  if anyReleased test s then
    callPass (mapPieces (fun t c p => if test t c p then { p with state := .waiting (releasedReason s) } else p) s)
  else s

/-- HELD pieces that no earlier piece holds any longer are released (R77, R79). -/
def releaseHolds (s : State) : State :=
  releaseWhere (fun t c p => p.state == .held false && !overlapHeld t c.kind p s) s

/-! ## Splitting -/

/-- The piece of a command in one segment, before its hold is tested (R75). -/
def newPiece (c : Command) (segment : Nat) : Piece :=
  { segment := segment
    sectors := rangeMask (c.start - 128 * segment) (min 128 (c.start + c.length - 128 * segment))
    state := .waiting .route
    route := none
    parts := []
    onFlash := false
    onPlatter := false
    error := false }

/-- The segments a command touches, ascending (R75). -/
def segmentsOf (c : Command) : List Nat :=
  if c.length = 0 then []
  else
    let first := segmentOf c.start
    (List.range (segmentOf (c.start + c.length - 1) - first + 1)).map fun i => first + i

/-- A command becomes OPEN and is split (R75); each piece is WAITING, or HELD where R77 holds it at once. A FLUSH_CACHE gets no
pieces. -/
def splitCommand (tag : Fin 32) (s : State) : State :=
  match commandOf tag s with
  | none => s
  | some c =>
    if c.kind = .flushCache then modifyCommand tag (fun c => { c with held := false }) s
    else
      let pieces := (segmentsOf c).map fun seg =>
        let p := newPiece c seg
        if overlapHeld tag c.kind p s then { p with state := .held false } else p
      callPass (modifyCommand tag (fun c => { c with held := false, pieces := pieces }) s)

/-! ## The enquiry of R88 -/

/-- Whether a tracked command holds a WRITE or TRIM piece of a segment that has not ended (R88). -/
def writePending (segment : Nat) (s : State) : Bool :=
  s.ct.slots.toList.any fun t =>
    match t.command with
    | some c =>
      changes c.kind
        && (if c.held then (segmentsOf c).contains segment
            else c.pieces.any fun p => p.segment == segment && !ended p)
    | none => false

/-! ## Orders of pieces and reissue -/

/-- The order of part i of a piece (R131, R132). -/
def pieceOrder (tag : Fin 32) (useNo : BitVec 16) (c : Command) (segment i : Nat) (p : OrderPart) (a : Address) : Order :=
  ⟨p.port, .foreground, .piece tag useNo segment i, p.op, a, some p.sectors, none,
    if p.op = .trim then .none else .host c.buffer, none⟩

/-- Whether a piece waits for room on the Platter Port (R89, R91). -/
def waitsOnPlatter (p : Piece) : Bool :=
  match p.state with
  | .waiting (.room _ platter) => platter
  | .issued => p.parts.any fun q => q.port == .platter && q.state == .unplaced
  | .waiting .route | .waiting (.frame _) | .waiting .save | .held _ | .done | .failed => false

/-- Whether a piece earlier than one waits for room on the Platter Port (R91). -/
def earlierWaits (tag : Fin 32) (segment : Nat) (s : State) : Bool :=
  (earlierCommands tag s).any (fun c => c.pieces.any waitsOnPlatter)
    || (commandOf tag s).any fun c => c.pieces.any fun p => decide (p.segment < segment) && waitsOnPlatter p

/-- A piece's part i with f applied. -/
def modifyPart (tag : Fin 32) (segment i : Nat) (f : OrderPart → OrderPart) (s : State) : State :=
  modifyPiece tag segment (fun p => { p with parts := p.parts.modify i f }) s

/-- An UNPLACED part of a piece on the Platter Port is placed (R91). -/
def placePart (tag : Fin 32) (segment i : Nat) (s : State) : State :=
  match commandOf tag s, (pieceOf tag segment s).bind fun p => p.parts[i]? with
  | some c, some q =>
    placeForeground (pieceOrder tag s.ct.slots[tag].useNo c segment i q (.platter segment))
      (modifyPart tag segment i (fun q => { q with state := .placed }) s)
  | _, _ => s

/-- A flash READ part is reissued to the platter (R91): at once where the Platter Foreground queue has room, no earlier piece
waits for room on it and no save holds routing (R97), otherwise in a later pass. -/
def reissue (tag : Fin 32) (segment i : Nat) (s : State) : State :=
  let s1 := modifyPart tag segment i (fun q => ⟨.platter, .read, q.sectors, .unplaced⟩) s
  if s.lu.mode ≠ .saving && foregroundRoom .platter s1 && !earlierWaits tag segment s1 then placePart tag segment i s1
  else s1

/-- Whether the slot of a tag is OCCUPIED under a use number: the test for an orphan result (R73, R100). -/
def tracked (tag : Fin 32) (useNo : BitVec 16) (s : State) : Bool :=
  (commandOf tag s).isSome && s.ct.slots[tag].useNo == useNo

/-- A flash READ taken back because its frame left BOUND is returned to its piece as withdrawn (R22, R91). -/
def withdrawn (o : Order) (s : State) : State :=
  match o.origin with
  | .piece tag useNo segment i => if o.op = .read && tracked tag useNo s then reissue tag segment i s else s
  | .chunk _ _ | .trim _ | .labelUpdate _ _ | .labelRead _ | .checkpoint _ => s

/-! ## Completion -/

/-- A slot becomes FREE and its command leaves the Arrival List (R73, R74). -/
def freeSlot (tag : Fin 32) (s : State) : State :=
  { s with
    ct.slots := s.ct.slots.set tag { s.ct.slots[tag] with command := none }
    ct.arrival := s.ct.arrival.filter fun t => t != tag }

/-- FLUSH_CACHE commands that are OPEN and have no WRITE command before them complete (R87), the oldest in the Arrival List first
(DESIGN CHOICE, log entry 32). `seen` says that a WRITE has been passed. -/
def flushCacheSweep : List (Fin 32) → Bool → State → State
  | [], _, s => s
  | t :: ts, seen, s =>
    match commandOf t s with
    | none => flushCacheSweep ts seen s
    | some c =>
      if c.kind = .flushCache && !c.held && !seen then
        flushCacheSweep ts seen (complete (.command t .good .none) (freeSlot t s))
      else flushCacheSweep ts (seen || c.kind == .write) s

/-- The FLUSH_CACHE test over the Arrival List (R87). -/
def testFlushCaches (s : State) : State := flushCacheSweep s.ct.arrival false s

/-- The status of a command whose pieces have all ended (R95). -/
def commandStatus (c : Command) : CommandStatus :=
  if c.pieces.any fun p => p.state == .failed then .mediaError else .good

/-- Served-from of a command (R95). -/
def servedFrom (c : Command) : ServedFrom :=
  match c.pieces.any Piece.onFlash, c.pieces.any Piece.onPlatter with
  | true, true => .mixed
  | true, false => .flash
  | false, true => .platter
  | false, false => .none

/-- A command completes when it is OPEN and every piece has ended (R95). -/
def finishCommand (tag : Fin 32) (s : State) : State :=
  match commandOf tag s with
  | none => s
  | some c =>
    if !c.held && !c.pieces.isEmpty && c.pieces.all ended then
      let s1 := complete (.command tag (commandStatus c) (servedFrom c)) (freeSlot tag s)
      let s2 := if commandStatus c = .mediaError then bump .commandsFailed s1 else s1
      releaseHolds (testFlushCaches s2)
    else s

/-- The counters of a piece that ends (R94, R96). -/
def countPiece (kind : CommandKind) (p : Piece) (s : State) : State :=
  if p.error then s
  else
    match kind with
    | .read =>
      match p.onFlash, p.onPlatter with
      | true, false => bump .readsFlash s
      | false, true => bump .readsPlatter s
      | true, true => bump .readsMixed s
      | false, false => s
    | .write => if p.route = some .absorb then bump .absorbedWrites s else s
    | .trim | .flushCache => s

/-- Whether every part of a piece has ended (R94). -/
def partsEnded (p : Piece) : Bool :=
  !p.parts.isEmpty && p.parts.all fun q => q.state == .endedOk || q.state == .endedError

/-- A piece ends when every part has ended (R94): it becomes FAILED or DONE, it is counted, and what it held is tested. -/
def endPiece (tag : Fin 32) (segment : Nat) (s : State) : State :=
  match commandOf tag s, pieceOf tag segment s with
  | some c, some p =>
    if partsEnded p && !ended p then
      let s1 := modifyPiece tag segment (fun p => { p with state := if p.error then .failed else .done }) s
      finishCommand tag (releaseHolds (countPiece c.kind p s1))
    else s
  | _, _ => s

/-- Part i of a piece ends OK on a medium (R90, R92, R93). -/
def partOk (tag : Fin 32) (segment i : Nat) (port : Port) (s : State) : State :=
  endPiece tag segment
    (modifyPiece tag segment
      (fun p => { p with
        parts := p.parts.modify i fun q => { q with state := .endedOk }
        onFlash := p.onFlash || port == .flash
        onPlatter := p.onPlatter || port == .platter }) s)

/-- Part i of a piece ends ERROR and sets the error mark (R90, R92, R93). -/
def partError (tag : Fin 32) (segment i : Nat) (s : State) : State :=
  endPiece tag segment
    (modifyPiece tag segment
      (fun p => { p with
        parts := p.parts.modify i fun q => { q with state := .endedError }
        error := true }) s)

/-! ## The Engine Mode at the Command Tracker -/

/-- The wait reason SAVE for every WAITING piece, when the mode becomes SAVING (R97). -/
def holdForSave (s : State) : State :=
  mapPieces (fun _ _ p =>
    match p.state with
    | .waiting _ => { p with state := .waiting .save }
    | .held _ | .issued | .done | .failed => p) s

/-- Pieces with wait reason SAVE take the reason ROUTE (R97). -/
def saveToRoute (s : State) : State :=
  mapPieces (fun _ _ p => if p.state = .waiting .save then { p with state := .waiting .route } else p) s

/-- The HELD commands of a list become OPEN and are split, in its order (R97). -/
def openHeld : List (Fin 32) → State → State
  | [], s => s
  | t :: ts, s =>
    openHeld ts (if (commandOf t s).any Command.held then splitCommand t s else s)

/-- What the Command Tracker does when the Engine Mode leaves SAVING (R97). -/
def leaveSaving (s : State) : State :=
  callPass (saveToRoute (testFlushCaches (openHeld s.ct.arrival s)))

/-- Every slot becomes FREE, with no completion, and the Arrival List is emptied (R98, R99). -/
def freeAllSlots (s : State) : State :=
  { s with
    ct.slots := Vector.ofFn fun t => { s.ct.slots[t] with command := none }
    ct.arrival := [] }

end Sys2Proof.Machine
end

