-- ==== Sys2Proof/Machine/MoveRecords.lean ====
section
/-! DEFINITION. The Migration Engine's records (5.1, 5.5): staging slots, marks, taking a move's orders back, and the reports
of the Segment Map that end a move (R107, R125, R126). -/

namespace Sys2Proof.Machine

/-- Whether a kind is a flush (R102). -/
def isFlush : MoveKind → Bool
  | .flush | .urgent => true
  | .promote | .directed => false

/-! ## Staging slots -/

/-- Whether a chunk of the active move is in flight (R115). -/
def chunkInFlight (s : State) : Bool := s.me.slot0.isSome || s.me.slot1.isSome

/-- Whether chunk c is in flight. -/
def chunkHeld (c : Nat) (s : State) : Bool :=
  s.me.slot0.any (fun k => k.chunk == c) || s.me.slot1.any fun k => k.chunk == c

/-- The slots whose chunk does not pass a test become FREE. -/
def keepSlots (test : ChunkSlot → Bool) (s : State) : State :=
  { s with
    me.slot0 := s.me.slot0.filter test
    me.slot1 := s.me.slot1.filter test }

/-- The slot of chunk c becomes FREE. -/
def freeChunk (c : Nat) (s : State) : State := keepSlots (fun k => k.chunk != c) s

/-- The stage of chunk c is set. -/
def setStage (c : Nat) (st : ChunkStage) (s : State) : State :=
  let f := fun k : ChunkSlot => if k.chunk == c then { k with stage := st } else k
  { s with
    me.slot0 := s.me.slot0.map f
    me.slot1 := s.me.slot1.map f }

/-- Whether a chunk of the active move has an order queued or outstanding (R78): its read or its write. A chunk whose write waits
for room has none. -/
def chunkOrdered (s : State) : Bool :=
  s.me.slot0.any (fun k => k.stage != .writeWaiting) || s.me.slot1.any fun k => k.stage != .writeWaiting

/-- The active move with f applied. -/
def modifyActive (f : Move → Move) (s : State) : State := { s with me.active := s.me.active.map f }

/-! ## Ending and stopping -/

/-- A move is ENDED: its record leaves the queue, the stack or the engine (R103), and the Platter Monitor hears of it (R110,
R128). -/
def removeMove (number : Byte) (s : State) : State :=
  reportWork { s with
    me.queue := s.me.queue.filter fun m => m.number != number
    me.stack := s.me.stack.filter fun m => m.number != number
    me.active := s.me.active.filter fun m => m.number != number }

/-- A promotion is ENDED by yield (R14, R126). Where it was the active move, the slots of its chunks become FREE: what they hold
waits for room for its write and has no order (DEDUCED, log entry 28). -/
def endByYield (number : Byte) (s : State) : State :=
  removeMove number (if s.me.active.any fun m => m.number == number then keepSlots (fun _ => false) s else s)

/-- The take-back of a stopped move's undispatched chunk orders, each of which frees its slot (R122, R137). -/
def pullOrders (number : Byte) (s : State) : State :=
  let taken := queuedChunks number s
  keepSlots (fun k => !taken.contains k.chunk) (takeBackChunks number s)

/-- A stop cause is recorded on the active move (R122): the first is kept. Chunks that wait for room for their write give
up their slots, and undispatched orders are taken back. -/
def markStop (cause : StopCause) (s : State) : State :=
  match s.me.active with
  | none => s
  | some m =>
    if m.stop.isSome then s
    else
      pullOrders m.number
        (keepSlots (fun k => k.stage != .writeWaiting) (modifyActive (fun m => { m with stop := some cause }) s))

/-- An overtake reported to a move (R7, R8, R103). -/
def overtake (number : Byte) (s : State) : State :=
  let f := fun m : Move => if m.number = number && isFlush m.kind then { m with overtaken := true } else m
  { s with
    me.active := s.me.active.map f
    me.stack := s.me.stack.map f }

/-- Whether a list holds a flush of a number. -/
def holdsFlush (number : Byte) (ms : List Move) : Bool := ms.any fun m => m.number == number && isFlush m.kind

/-- The end of an entry reported to the move its marker names (R5, R107, R125). A PENDING or SUSPENDED flush is ENDED; an
active one is stopped with ENTRY_ENDED and ENDED once no chunk is in flight. A promotion is not affected. -/
def endOfEntry (marker : Option Byte) (s : State) : State :=
  match marker with
  | none => s
  | some n =>
    if holdsFlush n s.me.queue || holdsFlush n s.me.stack then removeMove n s
    else if holdsFlush n s.me.active.toList then
      let s1 := markStop .entryEnded s
      if !chunkInFlight s1 && s1.me.active.any (fun m => m.stop == some .entryEnded) then removeMove n s1 else s1
    else s

/-! ## Urgent mode -/

/-- Whether the Migration Engine takes requests and makes its tests (R105, R114, R130). -/
def engineTests (s : State) : Bool := (s.lu.mode == .online || s.lu.mode == .saving) && !inReset s

/-- The comparison of the dirty count with DirtyHigh and DirtyLow (R109). -/
def compareDirty (s : State) : State :=
  if engineTests s then
    if !s.me.urgent && decide (s.params.dirtyHigh ≤ s.sm.dirtyCount) then
      occur .dirtyHigh s.sm.dirtyCount { s with me.urgent := true }
    else if s.me.urgent && decide (s.sm.dirtyCount ≤ s.params.dirtyLow) then { s with me.urgent := false }
    else s
  else s

end Sys2Proof.Machine
end

