-- ==== Sys2Proof/Machine/SegmentMap.lean ====
section
/-! DEFINITION. The Segment Map (chapter 1): entries and their transitions, the Frame Table, the three lists, the victim scan
and eviction, and frame labels. -/

namespace Sys2Proof.Machine

/-! ## Plain changes of the map -/

/-- The map entries with one more, in ascending segment order. -/
def insertEntry (e : Entry) : List Entry → List Entry
  | [] => [e]
  | d :: ds => if e.segment < d.segment then e :: d :: ds else d :: insertEntry e ds

/-- The entry of a segment with f applied: a change to C0 (R1). -/
def modifyEntry (segment : Nat) (f : Entry → Entry) (s : State) : State :=
  touch 0 { s with sm.entries := mapEntry segment f s.sm.entries }

/-- The frames with the state of frame f set. -/
def withFrameState (f : Nat) (st : FrameState) (fs : List Frame) : List Frame :=
  fs.modify f fun x => { x with state := st }

/-- The frames with the in-flight count of frame f changed. -/
def withInFlight (f : Nat) (g : Nat → Nat) (fs : List Frame) : List Frame :=
  fs.modify f fun x => { x with inFlight := g x.inFlight }

/-- A segment joins the Reclaim List tail (R24), from wherever it stood. -/
def toReclaimTail (segment : Nat) (s : State) : State :=
  touch 0 { s with sm.reclaim := s.sm.reclaim.filter (fun x => x != segment) ++ [segment] }

/-- A segment leaves the Reclaim List and the Dirty List. -/
def offLists (segment : Nat) (s : State) : State :=
  touch 0 { s with
    sm.reclaim := s.sm.reclaim.filter fun x => x != segment
    sm.dirty := s.sm.dirty.filter fun x => x != segment }

/-- The dirty count changes, which is reported to the Migration Engine (R25). -/
def setDirtyCount (n : Nat) (s : State) : State := compareDirty { s with sm.dirtyCount := n }

/-- Whether an entry counts in the dirty count (R25). -/
def countsDirty (st : EntryState) : Bool := st == .dirty || st == .flushing

/-! ## Frames leaving BOUND, and removal -/

/-- A frame leaves BOUND for TRIMMING (R5, R21, R22): undispatched orders naming it leave the Flash Port's queues, withdrawn
reads go back to their pieces in the order of the Flash Foreground queue (R91; DESIGN CHOICE, log entry 29), and its trim is
asked for when no order on it is in flight. -/
def frameLeavesBound (f : Nat) (s : State) : State :=
  let s1 := touch 0 { s with sm.frames := withFrameState f .trimming s.sm.frames }
  let reads := s1.fps.foreground.filter (leavesWith f)
  let s2 := reads.foldl (fun t o => withdrawn o t) (dropFrameOrders f s1)
  if inFlight f s2 = 0 then askTrim f s2 else s2

/-- The removal of an entry as one change (R5). -/
def removeEntry (segment : Nat) (s : State) : State :=
  match lookup segment s with
  | none => s
  | some e =>
    let s1 := offLists segment { s with sm.entries := s.sm.entries.filter fun x => x.segment != segment }
    let s2 := frameLeavesBound e.frame (endOfEntry e.marker s1)
    if countsDirty e.state then setDirtyCount (s2.sm.dirtyCount - 1) s2 else s2

/-- The emptying rule (R10) for the entry of a segment. -/
def emptying (segment : Nat) (s : State) : State :=
  match lookup segment s with
  | none => s
  | some e =>
    match e.state with
    | .fresh | .inbound => s
    | .clean | .dirty | .flushing =>
      if validSet e ≠ 0 then s
      else if e.absorbs = 0 then removeEntry segment s
      else
        let s1 := offLists segment (modifyEntry segment (fun x => { x with state := .fresh, marker := none }) s)
        let s2 := endOfEntry e.marker s1
        if countsDirty e.state then setDirtyCount (s2.sm.dirtyCount - 1) s2 else s2

/-- A NEW entry left with no absorb in flight is removed (R10). -/
def dropIfUnused (segment : Nat) (s : State) : State :=
  match lookup segment s with
  | some e => if e.state = .fresh && e.absorbs = 0 then removeEntry segment s else s
  | none => s

/-! ## Creation and absorbs -/

/-- An entry is created on the head of the Free Frame List with the values of R3; the candidate's record goes into it
(R42). None when the list is empty. -/
def createEntry (segment : Nat) (st : EntryState) (absorbs : Nat) (marker : Option Byte) (s : State) :
    Option Nat × State :=
  match s.sm.freeList with
  | [] => (none, s)
  | f :: rest =>
    let (h, s1) := takeCandidate segment s
    (some f, touch 0 { s1 with
      sm.freeList := rest
      sm.frames := withFrameState f .bound s1.sm.frames
      sm.entries := insertEntry ⟨segment, f, st, .part 0, 0, h, absorbs, 0, marker⟩ s1.sm.entries })

/-- An INBOUND entry is converted by a write or a trim (R14): the promotion ends by yield, and the entry becomes CLEAN at the
Reclaim List tail or, with an empty valid set, NEW. -/
def convertInbound (segment : Nat) (s : State) : State :=
  match lookup segment s with
  | none => s
  | some e =>
    let s1 :=
      match e.marker with
      | some n => endByYield n s
      | none => s
    if validSet e ≠ 0 then
      toReclaimTail segment (modifyEntry segment (fun x => { x with state := .clean, marker := none }) s1)
    else modifyEntry segment (fun x => { x with state := .fresh, marker := none }) s1

/-- The frame request for an absorb (R6): the frame number, or none for NO_FRAME. -/
def absorbRequest (segment : Nat) (s : State) : Option Nat × State :=
  match lookup segment s with
  | none => createEntry segment .fresh 1 none s
  | some e =>
    let s1 := if e.state = .inbound then convertInbound segment s else s
    (some e.frame, modifyEntry segment (fun x => { x with absorbs := x.absorbs + 1 }) s1)

/-- The entry of a segment when it is bound to a frame: the match of an order result (R2). -/
def matching (segment f : Nat) (s : State) : Option Entry :=
  (lookup segment s).filter fun e => e.frame == f

/-- An absorb's result OK (R7). -/
def absorbOk (segment f : Nat) (written : SectorSet) (s : State) : State :=
  match matching segment f s with
  | none => s
  | some e =>
    let s1 := modifyEntry segment
      (fun x => { x with
        validity := validityOf (validSet x ||| written)
        generation := x.generation + 1
        absorbs := x.absorbs - 1
        flushFailures := 0
        state := if x.state = .fresh || x.state = .clean then .dirty else x.state }) s
    match e.state with
    | .fresh | .clean =>
      let s2 := offLists segment s1
      setDirtyCount (s2.sm.dirtyCount + 1) { s2 with sm.dirty := s2.sm.dirty ++ [segment] }
    | .flushing =>
      match e.marker with
      | some n => overtake n s1
      | none => s1
    | .dirty | .inbound => s1

/-- An absorb's result ERROR (R8), with the emptying rule. -/
def absorbError (segment f : Nat) (written : SectorSet) (s : State) : State :=
  match matching segment f s with
  | none => s
  | some e =>
    let s1 := modifyEntry segment
      (fun x => { x with
        validity := validityOf (setMinus (validSet x) written)
        generation := x.generation + 1
        absorbs := x.absorbs - 1 }) s
    let s2 :=
      match e.state, e.marker with
      | .flushing, some n => overtake n s1
      | _, _ => s1
    dropIfUnused segment (emptying segment s2)

/-- An absorb withdrawn by a Link Reset (R9). -/
def absorbWithdrawn (segment f : Nat) (s : State) : State :=
  match matching segment f s with
  | none => s
  | some _ => dropIfUnused segment (modifyEntry segment (fun x => { x with absorbs := x.absorbs - 1 }) s)

/-! ## Reads and trims -/

/-- The kind of the loss that the Segment Map answers for a failed flash READ of a command (R90). -/
inductive Loss where
  | lostClean
  | lostDirty
  deriving DecidableEq, Repr

/-- A flash READ's result ERROR (R18, R90): the answer and the state after it. -/
def readError (segment f : Nat) (read : SectorSet) (s : State) : Loss × State :=
  match matching segment f s with
  | none => (.lostClean, s)
  | some e =>
    match e.state with
    | .clean | .inbound =>
      (.lostClean,
        emptying segment
          (modifyEntry segment (fun x => { x with validity := validityOf (setMinus (validSet x) read) }) s))
    | .dirty | .flushing | .fresh => (.lostDirty, s)

/-- The trim of positions of an entry that is not INBOUND (R19). A partial trim is reported as a change to C0 even where it takes
no position out of the valid set (DESIGN CHOICE, log entry 27). -/
def trimEntry (segment : Nat) (trimmed : SectorSet) (s : State) : State :=
  match lookup segment s with
  | none => s
  | some e =>
    match e.state with
    | .fresh | .inbound => s
    | .clean | .dirty | .flushing =>
      if trimmed = BitVec.allOnes 128 then removeEntry segment s
      else
        emptying segment
          (modifyEntry segment (fun x => { x with validity := validityOf (setMinus (validSet x) trimmed) }) s)

/-- The map effect of a routed trim (R19): an INBOUND entry is converted first, and one that becomes NEW by it has no absorb
in flight and is removed (R14). -/
def trimEffect (segment : Nat) (trimmed : SectorSet) (s : State) : State :=
  match lookup segment s with
  | none => s
  | some e =>
    if e.state = .inbound then trimEntry segment trimmed (dropIfUnused segment (convertInbound segment s))
    else trimEntry segment trimmed s

/-! ## Reports of the Migration Engine -/

/-- The entry of a segment when its move marker names a move: the match of R2. -/
def marked (segment : Nat) (number : Byte) (s : State) : Option Entry :=
  (lookup segment s).filter fun e => e.marker == some number

/-- A promotion's chunk write returned OK (R12): the chunk's positions join the valid set. -/
def promotionWrite (segment : Nat) (number : Byte) (c : Nat) (s : State) : State :=
  match marked segment number s with
  | none => s
  | some _ => modifyEntry segment (fun x => { x with validity := validityOf (validSet x ||| chunkMask c) }) s

/-- A promotion has finished (R12): its INBOUND entry becomes CLEAN, or is removed with nothing valid in it. -/
def promotionFinish (segment : Nat) (number : Byte) (s : State) : State :=
  match marked segment number s with
  | none => s
  | some e =>
    if e.state ≠ .inbound then s
    else if validSet e = 0 then removeEntry segment s
    else toReclaimTail segment (modifyEntry segment (fun x => { x with state := .clean, marker := none }) s)

/-- A promotion has been abandoned (R13): its INBOUND entry is removed. -/
def promotionAbandoned (segment : Nat) (number : Byte) (s : State) : State :=
  match marked segment number s with
  | none => s
  | some e => if e.state = .inbound then removeEntry segment s else s

/-- The flush candidate (R15): the head-most entry of the Dirty List that is not stuck and carries no move marker. -/
def flushCandidate (s : State) : Option Nat :=
  s.sm.dirty.find? fun seg =>
    (lookup seg s).any fun e => decide (e.flushFailures < 3) && e.marker.isNone

/-- A flush request (R15): whether it is accepted, and the state with the entry's marker set. -/
def flushRequest (segment : Nat) (number : Byte) (s : State) : Bool × State :=
  match lookup segment s with
  | some e =>
    if e.state = .dirty && decide (e.flushFailures < 3) && e.marker.isNone then
      (true, modifyEntry segment (fun x => { x with marker := some number }) s)
    else (false, s)
  | none => (false, s)

/-- A flush start (R15): the matching DIRTY entry becomes FLUSHING and leaves the Dirty List; the answer is its generation
and its effective valid set. -/
def flushStart (segment : Nat) (number : Byte) (s : State) : Option (Byte × SectorSet) × State :=
  match marked segment number s with
  | some e =>
    if e.state = .dirty then
      (some (e.generation, validSet e),
        offLists segment (modifyEntry segment (fun x => { x with state := .flushing }) s))
    else (none, s)
  | none => (none, s)

/-- A pending flush dropped or cancelled before it starts (R15). -/
def flushDropped (segment : Nat) (number : Byte) (s : State) : State :=
  match marked segment number s with
  | some _ => modifyEntry segment (fun x => { x with marker := none }) s
  | none => s

/-- A flush returns its entry DIRTY to the Dirty List head (R16, R17). -/
def flushReturns (segment failures : Nat) (s : State) : State :=
  let s1 := modifyEntry segment
    (fun x => { x with state := .dirty, marker := none, flushFailures := min 3 (x.flushFailures + failures) }) s
  { s1 with sm.dirty := segment :: s1.sm.dirty }

/-- A flush has finished (R16): the answer is whether the entry is CLEAN, none when no FLUSHING entry matches. -/
def flushFinish (segment : Nat) (number : Byte) (captured : Option Byte) (overtaken : Bool) (s : State) :
    Option Bool × State :=
  match marked segment number s with
  | some e =>
    if e.state ≠ .flushing then (none, s)
    else if captured = some e.generation && !overtaken then
      let s1 := toReclaimTail segment
        (modifyEntry segment (fun x => { x with state := .clean, marker := none, flushFailures := 0 }) s)
      (some true, askLabelUpdate e.frame e.generation (setDirtyCount (s1.sm.dirtyCount - 1) s1))
    else (some false, flushReturns segment 0 s)
  | none => (none, s)

/-- A started flush has been abandoned (R17); the cause CHUNK_ERROR counts a flush failure. -/
def flushAbandoned (segment : Nat) (number : Byte) (cause : StopCause) (s : State) : State :=
  match marked segment number s with
  | some e =>
    if e.state = .flushing then flushReturns segment (if cause = .chunkError then 1 else 0) s else s
  | none => s

/-! ## Frames: dispatch, results and trims -/

/-- Whether a trim of frame f is queued, held or outstanding. -/
def trimPending (f : Nat) (s : State) : Bool :=
  s.fps.background.any (fun o => isTrim o && names f o) || s.held.contains (.trim f)
    || s.fps.outstanding.any fun d => isTrim d.order && names f d.order

/-- A dispatch of an order naming frame f raises its in-flight count (R20). -/
def frameDispatched (f : Nat) (s : State) : State :=
  { s with sm.frames := withInFlight f (· + 1) s.sm.frames }

/-- A result of an order naming frame f lowers its in-flight count; a waiting trim is asked for at 0 (R20, R21). -/
def frameReturned (f : Nat) (ofTrim : Bool) (s : State) : State :=
  let s1 : State := { s with sm.frames := withInFlight f (· - 1) s.sm.frames }
  if !ofTrim && frameState f s1 == some .trimming && inFlight f s1 == 0 && !trimPending f s1 then askTrim f s1 else s1

/-- The result of a trim of frame f (R21, R23): FREE at the Free Frame List tail, or RETIRED. Either is reported to the
Command Tracker (R80). -/
def trimResult (f : Nat) (ok : Bool) (s : State) : State :=
  if frameState f s ≠ some .trimming then s
  else if ok then
    callPass (touch 0 { s with
      sm.frames := withFrameState f .free s.sm.frames
      sm.freeList := s.sm.freeList ++ [f] })
  else
    callPass (bump .retiredFrames (touch 0 { s with sm.frames := withFrameState f .retired s.sm.frames }))

/-! ## Victim scan and eviction -/

/-- Whether an entry may be evicted (R26): no PIN range matches it, no absorb is in flight, no move marker is set. -/
def evictable (e : Entry) (s : State) : Bool := !pinned e.segment s && e.absorbs == 0 && e.marker.isNone

/-- The eligible entries that a victim scan sees: among the first 64 of the Reclaim List, at most ScanWindow (R26). -/
def scanned (s : State) : List Entry :=
  (((s.sm.reclaim.take 64).filterMap fun seg => lookup seg s).filter fun e => evictable e s).take s.params.scanWindow

/-- The entry of lowest decayed heat, the first of equals (R26). -/
def coldestEntry (s : State) : List Entry → Option Entry
  | [] => none
  | e :: es =>
    match coldestEntry s es with
    | none => some e
    | some d => if decayedHeat d.heat s < decayedHeat e.heat s then some d else some e

/-- The victim scan (R26): the victim's segment and decayed heat, or none. -/
def victimScan (s : State) : Option (Nat × Nat) :=
  (coldestEntry s (scanned s)).map fun e => (e.segment, decayedHeat e.heat s)

/-- An eviction request (R27): the frame now TRIMMING, or none for NOT_ELIGIBLE. -/
def evict (segment : Nat) (s : State) : Option Nat × State :=
  match lookup segment s with
  | some e =>
    if e.state = .clean && evictable e s then (some e.frame, bump .evictions (removeEntry segment s)) else (none, s)
  | none => (none, s)

/-! ## Labels -/

/-- The write sequence is taken for a label and the counter rises (R28). -/
def takeWriteSeq (s : State) : State := touch 0 { s with sm.writeSeq := s.sm.writeSeq + 1 }

/-- The label of a flash write, filled in at dispatch (R29). -/
def fillLabel (segment : Nat) (dirty : Bool) (generation : Byte) (v : SectorSet) (s : State) : FrameLabel :=
  ⟨BitVec.ofNat 64 segment, s.sm.writeSeq, dirty, v == BitVec.allOnes 128, generation, v⟩

/-- Whether a label update may be dispatched (R29): the entry bound to the frame is CLEAN, has the captured generation, and has
no absorb in flight. -/
def updateStands (f : Nat) (captured : Byte) (s : State) : Bool :=
  (boundEntry f s).any fun e => e.state == .clean && e.generation == captured && e.absorbs == 0

/-! ## Building the map anew -/

/-- No entries, frames 0..n−1 all FREE and on the Free Frame List in ascending order, the other lists empty, the
write-sequence counter unchanged (R30, initialization of C0). -/
def freshMap (n : Nat) (s : State) : State :=
  { s with sm := ⟨[], List.replicate n ⟨.free, 0⟩, List.range n, [], [], 0, s.sm.writeSeq⟩ }

end Sys2Proof.Machine
end

