-- ==== Sys2Proof/Machine/Components.lean ====
section
/-! DEFINITION. The six components (8.1): the initialization of each, and its load from a saved record (R178) or, for C0, from
a Rebuild (R182). -/

namespace Sys2Proof.Machine

/-! ## Initialization (R164, R183) -/

/-- One component returned to its initial state; it leaves InUse and joins Modified (R165). -/
def initComponent (c : Fin 6) (s : State) : State :=
  reportInitialized c
    (match c with
      | 0 => freshMap s.lu.frameCount s
      | 1 =>
        { s with
          hu.epoch := 0
          hu.agingCount := 0
          hu.timeResidue := 0
          hu.secondsDue := 0
          hu.candidates := [] }
      | 2 => { s with rc.ranges := Vector.replicate 16 RangeSlot.initial }
      | 3 =>
        { s with
          rc.classes := Vector.replicate 16 ClassRec.initial
          params := Params.defaults.derive s.lu.frameCount }
      | 4 => { s with streams := Vector.replicate 8 StreamRec.initial }
      | 5 => { s with stats := Vector.replicate 32 0 })

/-- The heat reconciliation after a load or initialization that took C0 or C1 (R43). -/
def reconcileIf (v : CompSet) (s : State) : State :=
  if CompSet.has v 0 || CompSet.has v 1 then reconcile s else s

/-! ## Loads -/

/-- A frame's state as a saved map tells it (R178). -/
def savedFrameState (m : SavedMap) (f : Nat) : FrameState :=
  if m.trimming.contains f then .trimming
  else if m.retired.contains f then .retired
  else if m.free.contains f then .free
  else .bound

/-- Trims asked for, in ascending frame number (R21, R178). -/
def askTrims (fs : List Nat) (s : State) : State := fs.foldl (fun t f => askTrim f t) s

/-- A map loaded as one event (R178): the entries, the Frame Table, the three lists and the dirty count; every TRIMMING frame
has its trim placed at once. The write-sequence counter is the caller's. -/
def loadMap (m : SavedMap) (writeSeq : BitVec 48) (s : State) : State :=
  let s1 : State :=
    { s with
      sm :=
        { entries := (m.dirty ++ m.clean).foldl (fun es e => insertEntry e es) []
          frames := (List.range s.lu.frameCount).map fun f => ⟨savedFrameState m f, 0⟩
          freeList := m.free
          reclaim := m.clean.map Entry.segment
          dirty := m.dirty.map Entry.segment
          dirtyCount := m.dirty.length
          writeSeq := writeSeq } }
  askTrims ((List.range s.lu.frameCount).filter fun f => m.trimming.contains f) s1

/-- The larger of two write sequences. -/
def maxSeq (a b : BitVec 48) : BitVec 48 := if a < b then b else a

/-- A C0 record's load, none where the record is inconsistent (R178). -/
def loadC0 (data body : List Byte) (s : State) : Option State :=
  match readMap data body with
  | some m => if mapConsistent m s then some (loadMap m (maxSeq s.sm.writeSeq m.writeSeq) s) else none
  | none => none

/-- A C1 record's load, none where the record is inconsistent (R178). -/
def loadC1 (data body : List Byte) (s : State) : Option State :=
  let cs := readWays 4096 0 body
  if heatConsistent cs then
    some { s with
      hu.epoch := readLE data 16 4
      hu.agingCount := 0
      hu.timeResidue := 0
      hu.secondsDue := 0
      hu.candidates := cs }
  else none

/-- The number of valid records that stand before record i in saved order: a lower rank, or the same rank and a lower number
(R178). -/
def savedRank (v : Vector StreamRec 8) (i : Fin 8) : Nat :=
  (List.finRange 8).countP fun j =>
    v[j].valid && (decide (v[j].rank < v[i].rank) || (v[j].rank == v[i].rank && decide (j < i)))

/-- Of two valid records with one next expected LBA, the lower-numbered is kept, and the other loses its train as by R65
(R68). -/
def dropLaterDuplicates (v : Vector StreamRec 8) : Vector StreamRec 8 :=
  Vector.ofFn fun i =>
    if v[i].valid && (List.finRange 8).any fun j => decide (j < i) && v[j].valid && v[j].next == v[i].next then
      lostStream v[i]
    else v[i]

/-- Ranks renumbered in their saved order to fill 0 upward (R68, R178). -/
def renumberRanks (v : Vector StreamRec 8) : Vector StreamRec 8 :=
  Vector.ofFn fun i => if v[i].valid then { v[i] with rank := savedRank v i } else v[i]

/-- A C3 body's load (R178). -/
def loadC3 (body : List Byte) (s : State) : State :=
  { s with
    rc.classes := Vector.ofFn fun i => readClass (body.drop (8 * i.val))
    params := loadParameters s.lu.frameCount 1 ((List.range 24).map fun i => readLE body (132 + 4 * i) 4) s.params }

/-- The bytes of the body of C1 to C5 (8.1). -/
def loadedLength (c : Fin 6) : Nat :=
  match c with
  | 0 => 0
  | 1 => 16 * 4096
  | 2 => 16 * 32
  | 3 => 16 * 8 + 256
  | 4 => 8 * 16
  | 5 => 32 * 4

/-- A record's body as its component reads it: bytes beyond the component's body are ignored, and those that a shorter record does
not hold are free values from `index` on (R177, R178; DESIGN CHOICE, log entry 15). -/
def bodyOf (c : Fin 6) (body : List Byte) (index : Nat) : List Byte :=
  body ++ freeBytes index (loadedLength c - body.length)

/-- A whole body loaded into its component (R178), none where its contents are inconsistent. -/
def loadBody (c : Fin 6) (data body : List Byte) (s : State) : Option State :=
  match c with
  | 0 => loadC0 data body s
  | 1 => loadC1 data body s
  | 2 => some { s with rc.ranges := Vector.ofFn fun i => readSlot (body.drop (32 * i.val)) }
  | 3 => some (loadC3 body s)
  | 4 =>
    some { s with
      streams := renumberRanks (dropLaterDuplicates (Vector.ofFn fun i => readStream (body.drop (16 * i.val)))) }
  | 5 => some { s with stats := Vector.ofFn fun i => readLE body (4 * i.val) 4 }

/-- A record loaded into its component (R177, R178), none where the contents of a C0 or C1 record are inconsistent. -/
def loadRecord (c : Fin 6) (data : List Byte) (e : RecordEntry) (s : State) : Option State :=
  let body := (data.take e.length).drop 64
  loadBody c data (bodyOf c body s.freeIndex) { s with freeIndex := s.freeIndex + (loadedLength c - body.length) }

end Sys2Proof.Machine
end

