-- ==== Sys2Proof/Machine/Moves.lean ====
section
/-! DEFINITION. The Migration Engine (chapter 5): requests, the Move Queue, eligibility and the arbiter, chunks, preemption and
the Move Stack, finish and abandonment, yields, and the tests at the end of each of its events (`engineEvent`). -/

namespace Sys2Proof.Machine

/-! ## The Move Queue -/

/-- The queue with a move put after every move of its level (R111). -/
def enqueue (m : Move) : List Move → List Move
  | [] => [m]
  | x :: xs => if levelOf x.kind < levelOf m.kind then m :: x :: xs else x :: enqueue m xs

/-- A move that is made: PENDING, with no frame and no mark (R103, R105). -/
def newMove (number : Byte) (kind : MoveKind) (segment : Nat) : Move :=
  { number := number
    kind := kind
    segment := segment
    frame := none
    state := .pending
    needed := none
    firstChunk := 0
    done := 0
    parts := none
    captured := none
    overtaken := false
    started := false
    preempt := false
    yielding := false
    stop := none }

/-- The first number from one on that no existing move holds, tried `fuel` times (R104). -/
def freeNumber : Nat → Byte → List Move → Byte
  | 0, n, _ => n
  | fuel + 1, n, ms => if ms.any fun m => m.number == n then freeNumber fuel (n + 1) ms else n

/-- The number of the next new move (R104). -/
def nextNumber (s : State) : Byte := freeNumber 36 (s.me.lastNumber + 1) (allMoves s)

/-- The move of a segment, in any place (R104). -/
def moveOf (segment : Nat) (s : State) : Option Move := (allMoves s).find? fun m => m.segment == segment

/-- Whether the Move Queue is full (R111). -/
def queueFull (s : State) : Bool := decide (Config.moveQueueCapacity ≤ s.me.queue.length)

/-- A queue drop is marked and counted (R111). -/
def noteDrop (s : State) : State := bump .queueDrops { s with me.queueDrop := true }

/-- A PENDING move leaves the queue: a flush is reported to the Segment Map as dropped (R111, R122). -/
def dropPending (m : Move) (s : State) : State :=
  let s1 := removeMove m.number s
  if isFlush m.kind then flushDropped m.segment m.number s1 else s1

/-- Room is made in the queue for a new move of a level (R111): level 4 displaces the last move of a full queue, a lower
level finds none. The answer says whether there is room. -/
def makeRoom (level : Nat) (s : State) : Bool × State :=
  if !queueFull s then (true, s)
  else if level = 4 then
    match s.me.queue.getLast? with
    | some m => (true, noteDrop (dropPending m s))
    | none => (true, s)
  else (false, noteDrop s)

/-- A new move joins the Move Queue (R104, R111). -/
def addMove (m : Move) (s : State) : State :=
  reportWork { s with
    me.queue := enqueue m s.me.queue
    me.lastNumber := m.number }

/-- A new move is made for a segment that has none (R105): a flush only where the Segment Map accepts it (R15). The answer
says whether a move was made. -/
def makeMove (segment : Nat) (kind : MoveKind) (s : State) : Bool × State :=
  match makeRoom (levelOf kind) s with
  | (false, s1) => (false, s1)
  | (true, s1) =>
    let n := nextNumber s1
    if isFlush kind then
      match flushRequest segment n s1 with
      | (true, s2) => (true, addMove (newMove n kind segment) s2)
      | (false, s2) => (false, s2)
    else (true, addMove (newMove n kind segment) s1)

/-- A PENDING move is raised to a level (R105): its arrival is renewed. -/
def raiseMove (m : Move) (kind : MoveKind) (s : State) : State :=
  reportWork { s with
    me.queue := enqueue { m with kind := kind } (s.me.queue.filter fun x => x.number != m.number) }

/-- A move request (R105). The answer says whether it led to a new or a raised move. -/
def requestMove (segment : Nat) (kind : MoveKind) (s : State) : Bool × State :=
  if !engineTests s then (false, s)
  else
    match moveOf segment s with
    | none => makeMove segment kind s
    | some m =>
      if m.state ≠ .pending then (false, s)
      else if isFlush m.kind = isFlush kind then
        if levelOf m.kind < levelOf kind then (true, raiseMove m kind s) else (false, s)
      else if isFlush kind then makeMove segment kind (removeMove m.number s)
      else (false, s)

/-- A trim of a segment is reported (R86, R107): a PENDING promotion of it is ENDED. -/
def trimReport (segment : Nat) (s : State) : State :=
  match moveOf segment s with
  | some m => if m.state = .pending && !isFlush m.kind then removeMove m.number s else s
  | none => s

/-! ## Abandonment and finish -/

/-- The abandonment report of a move that has left the engine (R122). -/
def reportAbandoned (m : Move) (cause : StopCause) (s : State) : State :=
  if cause = .entryEnded then s
  else if !isFlush m.kind then bump .promotionsAbandoned (promotionAbandoned m.segment m.number s)
  else if m.started then
    let s1 := flushAbandoned m.segment m.number cause s
    if cause = .chunkError then bump .flushesFailed s1 else s1
  else flushDropped m.segment m.number s

/-- A move that holds no chunk is ENDED and its abandonment reported (R122). -/
def abandon (m : Move) (cause : StopCause) (s : State) : State := reportAbandoned m cause (removeMove m.number s)

/-- A stopped active move with no chunk in flight is ENDED (R122). -/
def endIfDrained (s : State) : State :=
  match s.me.active with
  | some m =>
    match m.stop with
    | some cause => if chunkInFlight s then s else abandon m cause s
    | none => s
  | none => s

/-- The active move is stopped with a cause (R122). -/
def stopActive (cause : StopCause) (s : State) : State := endIfDrained (markStop cause s)

/-- Every PENDING move of a list is ENDED (R122, R124). -/
def stopPending : List Move → State → State
  | [], s => s
  | m :: ms, s => stopPending ms (dropPending m s)

/-- Every SUSPENDED move of a list, top first, is abandoned (R122, R124). -/
def stopStacked (cause : StopCause) : List Move → State → State
  | [], s => s
  | m :: ms, s => stopStacked cause ms (abandon m cause s)

/-- Every move that exists is stopped with a cause (R124). -/
def stopAll (cause : StopCause) (s : State) : State :=
  let s1 := stopPending s.me.queue s
  stopActive cause (stopStacked cause s1.me.stack s1)

/-- The finish of a move reported to the Segment Map and counted (R119). -/
def reportFinished (m : Move) (s : State) : State :=
  if isFlush m.kind then
    match flushFinish m.segment m.number m.captured m.overtaken s with
    | (some true, s1) => bump .flushesFinished s1
    | (some false, s1) => bump .flushesMismatched s1
    | (none, s1) => s1
  else bump .promotionsFinished (promotionFinish m.segment m.number s)

/-- The active move finishes when every needed chunk is done and none is in flight (R119). -/
def finishTest (s : State) : State :=
  match s.me.active with
  | some m =>
    match m.needed with
    | some need =>
      if m.stop.isNone && !chunkInFlight s && (need &&& ~~~m.done) == 0 then removeMove m.number (reportFinished m s)
      else s
    | none => s
  | none => s

/-! ## Chunks (5.5) -/

/-- Whether the active move's chunk gate is open (R115). -/
def chunkGate (m : Move) (s : State) : Bool :=
  m.stop.isNone && !m.preempt && !m.yielding && s.lu.mode != .saving && !inReset s

/-- The port a move reads from. -/
def sourcePort (k : MoveKind) : Port := if isFlush k then .flash else .platter

/-- The port a move writes to. -/
def targetPort (k : MoveKind) : Port := if isFlush k then .platter else .flash

/-- The next chunk a move needs that is neither done nor in flight; before a flush's start, its first chunk (R115, R117). -/
def nextChunk (m : Move) (s : State) : Option Nat :=
  match m.needed with
  | some need =>
    (List.range 4).find? fun c => need.getLsbD c && !m.done.getLsbD c && !chunkHeld c s
  | none => if chunkHeld m.firstChunk s then none else some m.firstChunk

/-- The positions of the segment's chunk that a promotion reads from the platter (R116, R118). -/
def readPart (m : Move) (c : Nat) (s : State) : SectorSet := chunkMask c &&& platterMask s m.segment

/-- The positions of a chunk that a flush writes to the platter (R117, R118). -/
def flushPart (m : Move) (c : Nat) (s : State) : SectorSet :=
  m.parts.getD 0 &&& chunkMask c &&& platterMask s m.segment

/-- A chunk order of a move (R115, R131). -/
def chunkOrder (m : Move) (c slot : Nat) (p : Port) (op : Operation) (v : SectorSet) : Order :=
  ⟨p, .background, .chunk m.number c, op,
    (match p with
      | .flash => .frame (m.frame.getD 0)
      | .platter => .platter m.segment),
    some v, none, .staging slot, some (levelOf m.kind)⟩

/-- A staging slot becomes HELD by a chunk. -/
def holdSlot (slot : Nat) (k : ChunkSlot) (s : State) : State :=
  if slot = 0 then { s with me.slot0 := some k } else { s with me.slot1 := some k }

/-- The lower-numbered FREE slot (R115). -/
def freeSlotNumber (s : State) : Option Nat :=
  if s.me.slot0.isNone then some 0 else if s.me.slot1.isNone then some 1 else none

/-- The active move starts a chunk where it can (R115, R116, R117). A promotion chunk that lies beyond the platter's end has
no read and waits for its write at once (R118). -/
def startChunk (s : State) : State :=
  match s.me.active with
  | none => s
  | some m =>
    match freeSlotNumber s, nextChunk m s with
    | some slot, some c =>
      if !chunkGate m s then s
      else if !isFlush m.kind && readPart m c s == 0 then holdSlot slot ⟨c, .writeWaiting⟩ s
      else if backgroundRoom (sourcePort m.kind) s then
        placeBackground
          (chunkOrder m c slot (sourcePort m.kind) .read (if isFlush m.kind then chunkMask c else readPart m c s))
          (holdSlot slot ⟨c, .reading⟩ s)
      else s
    | _, _ => s

/-- The slot whose chunk waits for room for its write, the lower chunk first (R115). -/
def waitingSlot (s : State) : Option (Nat × Nat) :=
  match s.me.slot0.filter (fun k => k.stage == .writeWaiting), s.me.slot1.filter (fun k => k.stage == .writeWaiting) with
  | some a, some b => if b.chunk < a.chunk then some (1, b.chunk) else some (0, a.chunk)
  | some a, none => some (0, a.chunk)
  | none, some b => some (1, b.chunk)
  | none, none => none

/-- A chunk whose read has ended places its write where the destination queue has room (R115, R116, R117). -/
def placeWrite (s : State) : State :=
  match s.me.active, waitingSlot s with
  | some m, some (slot, c) =>
    if m.stop.isNone && backgroundRoom (targetPort m.kind) s then
      placeBackground
        (chunkOrder m c slot (targetPort m.kind) .write (if isFlush m.kind then flushPart m c s else chunkMask c))
        (setStage c .writing s)
    else s
  | _, _ => s

/-- The chunks of the active move go on as far as room and slots allow: at most two writes and two starts, and the writes
of chunks that start without a read (R115, R118). -/
def pumpChunks (s : State) : State :=
  if inReset s then s
  else placeWrite (placeWrite (startChunk (startChunk (placeWrite (placeWrite s)))))

/-! ## Eligibility, the arbiter and preemption -/

/-- Whether a PENDING move is eligible (R112). -/
def eligible (m : Move) (s : State) : Bool :=
  s.lu.mode == .online && s.pm.state == .ready
    && decide (s.fps.level < levelOf m.kind) && decide (s.pps.level < levelOf m.kind)
    && (isFlush m.kind || (!s.sm.freeList.isEmpty && !writePending m.segment s))

/-- The first eligible move in the queue's order (R113). -/
def firstEligible (s : State) : Option Move := s.me.queue.find? fun m => eligible m s

/-- The queue without a move. -/
def unqueue (m : Move) (s : State) : State :=
  { s with me.queue := s.me.queue.filter fun x => x.number != m.number }

/-- The stack top is resumed (R113). -/
def resume (m : Move) (s : State) : State :=
  { s with
    me.stack := s.me.stack.drop 1
    me.active := some { m with state := .active } }

/-- The lowest chunk that holds a position of a valid set (R117). -/
def lowestChunk (v : SectorSet) : Nat := ((List.range 4).find? fun c => overlaps v (chunkMask c)).getD 0

/-- The activation of a flush (R113, R117): its frame and its first chunk come from the entry. -/
def activateFlush (m : Move) (e : Entry) (s : State) : State :=
  let s1 := unqueue m s
  { s1 with
    me.active := some { m with state := .active, frame := some e.frame, firstChunk := lowestChunk (validSet e) } }

/-- The activation of a promotion on a segment with no entry (R11, R113): an INBOUND entry on the Free Frame List head. -/
def activatePromotion (m : Move) (s : State) : State :=
  match createEntry m.segment .inbound 0 (some m.number) (unqueue m s) with
  | (some f, s1) => { s1 with me.active := some { m with state := .active, frame := some f, needed := some 0b1111 } }
  | (none, _) => s

/-- The move arbiter (R113), which chooses again, `fuel` times at most, when a promotion finds its segment PRESENT. -/
def arbiter : Nat → State → State
  | 0, s => s
  | fuel + 1, s =>
    match s.me.active with
    | some _ => s
    | none =>
      match s.me.stack.head?, firstEligible s with
      | none, none => s
      | some t, none => resume t s
      | top, some m =>
        if top.any fun t => decide (levelOf m.kind ≤ levelOf t.kind) then
          match top with
          | some t => resume t s
          | none => s
        else
          match lookup m.segment s with
          | some e => if isFlush m.kind then activateFlush m e s else arbiter fuel (removeMove m.number s)
          | none => if isFlush m.kind then arbiter fuel (removeMove m.number s) else activatePromotion m s

/-- A push that found two moves on the Move Stack abandons the bottom one (R121). -/
def spillBottom (s : State) : State :=
  if 2 < s.me.stack.length then
    match s.me.stack.getLast? with
    | some b => abandon b .spill (bump .spills (occur .moveSpill b.segment { s with me.moveSpill := true }))
    | none => s
  else s

/-- The active move becomes SUSPENDED and goes on top of the Move Stack (R120, R121). -/
def suspend (m : Move) (s : State) : State :=
  spillBottom { s with
    me.active := none
    me.stack := { m with state := .suspended, preempt := false } :: s.me.stack }

/-- The preemption test (R120). A stopped move takes the mark like any other; it is ENDED before the test is made with no
chunk in flight (R122). -/
def preemptTest (s : State) : State :=
  match s.me.active with
  | none => s
  | some m =>
    if s.me.queue.any fun x => eligible x s && decide (levelOf m.kind < levelOf x.kind) then
      if chunkInFlight s then modifyActive (fun m => { m with preempt := true }) s else suspend m s
    else if m.preempt && !chunkInFlight s then modifyActive (fun m => { m with preempt := false }) s
    else s

/-- Whether a move of a level exists. -/
def levelExists (l : Nat) (s : State) : Bool := (allMoves s).any fun m => levelOf m.kind == l

/-- The URGENT request of a request check (R110). -/
def urgentCheck (s : State) : State :=
  if s.me.urgent && !levelExists 4 s then
    match flushCandidate s with
    | some seg => (requestMove seg .urgent s).2
    | none => s
  else s

/-- The FLUSH request of a request check (R108). -/
def flushCheck (s : State) : State :=
  if s.pm.state == .ready && !s.pm.degraded && !levelExists 2 s && !levelExists 4 s && !queueFull s then
    match flushCandidate s with
    | some seg => (requestMove seg .flush s).2
    | none => s
  else s

/-- The three tests at the end of an event of the Migration Engine (R114): the request check, the preemption test and the
arbiter. In SAVING only the first is made (R113, R120, R127). -/
def engineChecks (s : State) : State :=
  if engineTests s then
    let s1 := flushCheck (urgentCheck s)
    if s.lu.mode = .saving then s1
    else
      let s2 := preemptTest s1
      arbiter (s2.me.queue.length + 1) s2
  else s

/-! ## Saves and yields -/

/-- In SAVING an active move with no chunk in flight becomes PAUSED (R127). -/
def pauseTest (s : State) : State :=
  if s.lu.mode = .saving && !chunkInFlight s then modifyActive (fun m => { m with state := .paused }) s else s

/-- Whether a segment's entry is INBOUND and its promotion is the active move, which alone can have a chunk in flight (R115). -/
def activelyPromoted (segment : Nat) (s : State) : Bool :=
  s.me.active.any (fun m => m.segment == segment && !isFlush m.kind)
    && (lookup segment s).any fun e => e.state == .inbound

/-- Whether the promotion that owns a segment's INBOUND entry has a chunk order queued or outstanding: a WRITE or TRIM piece that
meets it then becomes HELD (R78, R81). -/
def promotionBusy (segment : Nat) (s : State) : Bool := activelyPromoted segment s && chunkOrdered s

/-- Whether the report that ends the hold of R78 is still to come: the promotion has a chunk in flight (R126; DEDUCED, log
entry 28). -/
def yieldAwaited (segment : Nat) (s : State) : Bool := activelyPromoted segment s && chunkInFlight s

/-- Pieces that a yield request holds are released on the report of the Migration Engine: its promotion has no chunk in flight, has
ended, or has left INBOUND (R78, R79, R126). -/
def releaseYields (s : State) : State :=
  releaseWhere (fun _ _ p => p.state == .held true && !yieldAwaited p.segment s) s

/-- What follows each event that the Migration Engine takes (R114): the tests, then the chunks of the active move, then the
reports to the Command Tracker and the pause of a save. -/
def engineEvent (s : State) : State :=
  if inReset s then s else releaseYields (pauseTest (pumpChunks (engineChecks s)))

/-- A yield request (R126): the yield mark of the segment's move is set where it is the ACTIVE promotion with its entry
INBOUND. -/
def yieldRequest (segment : Nat) (s : State) : State :=
  if (lookup segment s).any fun e => e.state == .inbound then
    modifyActive (fun m =>
      if m.segment == segment && !isFlush m.kind && m.state == .active then { m with yielding := true } else m) s
  else s

/-- The withdrawal of every yield request (R126, R130). -/
def withdrawYields (s : State) : State :=
  { s with
    me.active := s.me.active.map fun m => { m with yielding := false }
    me.stack := s.me.stack.map fun m => { m with yielding := false } }

/-- A PAUSED move becomes ACTIVE when the Engine Mode leaves SAVING (R127). -/
def unpause (s : State) : State :=
  modifyActive (fun m => if m.state = .paused then { m with state := .active } else m) s

/-! ## Chunk results (5.5, 5.7) -/

/-- Whether the active move is the one a result names. -/
def activeIs (number : Byte) (s : State) : Bool := s.me.active.any fun m => m.number == number

/-- Chunk c of the active move is done and its slot is FREE. -/
def chunkDone (c : Nat) (s : State) : State :=
  freeChunk c (modifyActive (fun m => { m with done := m.done ||| chunkBit c }) s)

/-- A chunk read returned OK (R115, R117, R118, R122). -/
def chunkReadOk (m : Move) (c : Nat) (s : State) : State :=
  if m.stop.isSome then endIfDrained (freeChunk c s)
  else if isFlush m.kind && m.started && !(m.needed.getD 0).getLsbD c then freeChunk c s
  else if isFlush m.kind && flushPart m c s == 0 then chunkDone c s
  else setStage c .writeWaiting s

/-- A chunk write returned OK (R115, R116, R122). -/
def chunkWriteOk (m : Move) (c : Nat) (s : State) : State :=
  let s1 := if isFlush m.kind then s else promotionWrite m.segment m.number c s
  endIfDrained (chunkDone c s1)

/-- The result of a chunk order (R115, R116, R123), with the finish test of R119. -/
def chunkResult (number : Byte) (c : Nat) (op : Operation) (ok : Bool) (s : State) : State :=
  match s.me.active with
  | none => s
  | some m =>
    if m.number ≠ number then s
    else if !ok then stopActiveOrDrain c s
    else finishTest (if op = .read then chunkReadOk m c s else chunkWriteOk m c s)
where
  /-- A failed chunk (R123): its slot is FREE and the move is stopped with CHUNK_ERROR. -/
  stopActiveOrDrain (c : Nat) (s : State) : State := stopActive .chunkError (freeChunk c s)

/-- The dispatch of a flush's first chunk read (R117): the flush start. -/
def flushStarts (number : Byte) (s : State) : State :=
  match s.me.active with
  | none => s
  | some m =>
    if m.number = number && isFlush m.kind && !m.started then
      match flushStart m.segment m.number s with
      | (some (g, v), s1) =>
        modifyActive (fun m =>
          { m with captured := some g, parts := some v, started := true, needed := some (chunksOf v) }) s1
      | (none, s1) => s1
    else s

end Sys2Proof.Machine
end

