-- ==== Sys2Proof/Machine/Checkpoint.lean ====
section
/-! DEFINITION. The Checkpoint Unit's operations (8.3 to 8.6): the layout, Save from its quiesce to its end, Restore from its
header READ to its end, and Rebuild from its label reads to its end. -/

namespace Sys2Proof.Machine

/-! ## Layout (R169) -/

/-- A0: the blocks that the largest C0 record needs (R169). -/
def mapBlocks (frameCount : Nat) : Nat := blocksOf (64 + 52 * frameCount)

/-- The layout that Configure chooses (R169). -/
def chooseLayout (frameCount checkpointBlocks : Nat) : Layout :=
  if mapBlocks frameCount + 22 ≤ checkpointBlocks then .standard else .compact

/-- The first block of a component's area under STANDARD (R169). -/
def areaStart (c : Fin 6) (frameCount : Nat) : Nat :=
  match c with
  | 0 => 1
  | 1 => mapBlocks frameCount + 1
  | 2 => mapBlocks frameCount + 18
  | 3 => mapBlocks frameCount + 19
  | 4 => mapBlocks frameCount + 20
  | 5 => mapBlocks frameCount + 21

/-! ## Ending a long transaction -/

/-- The completion of the long transaction in flight is handed over and the marker returns to none (R188). -/
def completeLong (kind : TxnKind) (status : TxnStatus) (results : TxnResults) (s : State) : State :=
  complete (.transaction (txnCode kind) s.lu.markerSeq status .none results) { s with lu.marker := .none }

/-- A checkpoint order is made and placed when the Flash Background queue has room (R170): its number is the next. -/
def placeRequest (op : Operation) (first blocks : Nat) (install : Order → CuOperation) (s : State) : State :=
  let n := s.cu.requestNo + 1
  placeCheckpoint { s with
    cu.requestNo := n
    cu.operation := install (checkpointOrder n op first blocks) }

/-! ## Save (R171 to R175) -/

/-- Whether the quiesce of a save ends (R171). -/
def quiesceEnds (s : State) : Bool := !commandOrders s && !chunkInFlight s && mapQuiet s

/-- Whether a save is rewriting (R172). -/
def rewriting (s : State) : Bool :=
  s.cu.layout == some .compact || s.cu.image.layout != s.cu.layout || s.cu.image.frameCount != s.lu.frameCount
    || s.cu.image.sequence == Config.maxU32

/-- The written set W (R172). -/
def writtenSet (requested : CompSet) (full : Bool) (s : State) : CompSet :=
  if rewriting s || full then requested &&& s.cu.inUse else requested &&& s.cu.inUse &&& s.cu.modified

/-- The present set after the save (R172). -/
def presentAfter (requested : CompSet) (s : State) : CompSet :=
  if rewriting s then requested &&& s.cu.inUse
  else compMinus s.cu.image.present requested ||| (requested &&& s.cu.inUse)

/-- The new header sequence (R172). -/
def nextSequence (s : State) : Nat := if s.cu.image.sequence = Config.maxU32 then 1 else s.cu.image.sequence + 1

/-- The blocks that a save of a set needs under COMPACT (R172). -/
def compactBlocks (w : CompSet) (s : State) : Nat :=
  1 + ((compList w).map fun c => blocksOf (recordLength c s)).sum

/-- The Engine Mode leaves SAVING (R174, R175): the Migration Engine and the Command Tracker go on (R97, R127). -/
def resumeAfterSave (s : State) : State :=
  if s.lu.mode = .saving then engineEvent (leaveSaving (unpause { s with lu.mode := .online })) else s

/-- A save ends with a status and its results (R174, R175, R193). -/
def endSave (status : TxnStatus) (results : TxnResults) (s : State) : State :=
  resumeAfterSave (completeLong .save status results { s with cu.operation := .idle })

/-- The header of a save, built when the last record has returned OK (R174). -/
def buildHeader (p : SaveProgress) (s : State) : Header :=
  { layout := s.cu.layout
    sequence := p.sequence
    frameCount := s.lu.frameCount
    present := p.present
    entries := Vector.ofFn fun c => if CompSet.has p.written c then p.entries[c] else s.cu.image.entries[c]
    writeSeq := s.sm.writeSeq }

/-- The header is written to block 0 (R174). -/
def writeHeader (p : SaveProgress) (s : State) : State :=
  let h := buildHeader p s
  placeRequest .write 0 1 (fun o => .saving { p with current := none, header := h, waiting := some o })
    { s with cu.buffer := wholeBlocks (headerBytes h) }

/-- The block at which the record of component c goes (R173). -/
def recordStart (c : Fin 6) (p : SaveProgress) (s : State) : Nat :=
  if s.cu.layout = some .compact then p.nextBlock else areaStart c s.lu.frameCount

/-- A component is snapshotted into the checkpoint buffer and its record is written (R173). -/
def writeRecord (c : Fin 6) (rest : List (Fin 6)) (p : SaveProgress) (s : State) : State :=
  let length := recordLength c s
  let start := recordStart c p s
  let p' : SaveProgress :=
    { p with
      remaining := rest
      current := some c
      snapshotted := p.snapshotted ||| compBit c
      entries := p.entries.set c ⟨p.sequence, start, length, crc32 (recordBody c s)⟩
      nextBlock := p.nextBlock + blocksOf length }
  placeRequest .write start (blocksOf length) (fun o => .saving { p' with waiting := some o })
    { s with
      cu.buffer := wholeBlocks (recordBytes c p.sequence s)
      cu.snapshotMarks := compMinus s.cu.snapshotMarks (compBit c) }

/-- The next step of a save: the next record of W, or the header (R173, R174). -/
def saveNext (p : SaveProgress) (s : State) : State :=
  match p.remaining with
  | c :: rest => writeRecord c rest p s
  | [] => writeHeader p s

/-- The plan of a save at the end of its quiesce (R172), and its first order. -/
def planSave (requested : CompSet) (full : Bool) (s : State) : State :=
  let w := writtenSet requested full s
  let present := presentAfter requested s
  let performed := rewriting s && !full
  if s.cu.layout = some .compact && decide (s.lu.checkpointBlocks < compactBlocks w s) then
    endSave .noSpace .none s
  else if w = 0 && present = s.cu.image.present then endSave .done (.saved 0 performed) s
  else
    saveNext
      { requested := requested
        fullPerformed := performed
        written := w
        present := present
        sequence := nextSequence s
        remaining := compList w
        current := none
        snapshotted := 0
        entries := s.cu.image.entries
        nextBlock := 1
        header := s.cu.image
        waiting := none } s

/-- The header has returned OK (R174): the image, and the components that leave Modified. A component of R that is not in
InUse by now leaves it too (DEDUCED, log entry 16). -/
def saveSucceeds (p : SaveProgress) (s : State) : State :=
  let leaving := compMinus p.written s.cu.snapshotMarks ||| compMinus p.requested s.cu.inUse
  endSave .done (.saved p.written p.fullPerformed)
    { s with
      cu.image := p.header
      cu.modified := compMinus s.cu.modified leaving }

/-- A checkpoint WRITE of a save has failed (R175): the overwritten components join Modified. -/
def saveFails (p : SaveProgress) (s : State) : State :=
  match p.current with
  | some _ =>
    endSave .saveFailed (.saved p.snapshotted p.fullPerformed)
      { s with cu.modified := s.cu.modified ||| p.snapshotted }
  | none =>
    endSave .saveFailed (.saved p.written p.fullPerformed)
      { s with
        cu.modified := s.cu.modified ||| p.written
        cu.image := { s.cu.image with layout := none, present := 0, sequence := p.sequence } }

/-- The result of a save's checkpoint WRITE (R173 to R175). -/
def saveResult (p : SaveProgress) (ok : Bool) (s : State) : State :=
  if !ok then saveFails p s
  else
    match p.current with
    | some _ => saveNext p s
    | none => saveSucceeds p s

/-! ## Restore (R176 to R179) -/

/-- A Restore ends (R176, R179): the Engine Mode returns to OFFLINE. -/
def endRestore (status : TxnStatus) (results : TxnResults) (s : State) : State :=
  completeLong .restore status results { s with cu.operation := .idle, lu.mode := .offline }

/-- The end of an accepted Restore (R179). -/
def finishRestore (p : RestoreProgress) (s : State) : State :=
  endRestore .done (.restored p.loaded p.failed (CompSet.has p.failed 0)) (reconcileIf p.requested s)

/-- A component that fails (R177): it is initialized and joins the failed set. -/
def failComponent (c : Fin 6) (p : RestoreProgress) (s : State) : RestoreProgress × State :=
  ({ p with failed := p.failed ||| compBit c }, initComponent c s)

/-- Whether a record's blocks can be read: there is at least one, and none lies beyond CheckpointBlocks (R177). -/
def recordInRegion (e : RecordEntry) (s : State) : Bool :=
  decide (0 < e.length) && decide (e.start + blocksOf e.length ≤ s.lu.checkpointBlocks)

/-- The components still to be handled are taken in order up to the first whose record must be read (R177). -/
def restoreNext : List (Fin 6) → RestoreProgress → State → State
  | [], p, s => finishRestore p s
  | c :: rest, p, s =>
    if !CompSet.has s.cu.image.present c then restoreNext rest p (initComponent c s)
    else if !recordInRegion s.cu.image.entries[c] s then
      restoreNext rest (failComponent c p s).1 (failComponent c p s).2
    else
      placeRequest .read s.cu.image.entries[c].start (blocksOf s.cu.image.entries[c].length)
        (fun o => .restoring { p with remaining := rest, current := some c, waiting := some o }) s

/-- The header READ is placed (R176, step 4). -/
def readHeaderBlock (requested : CompSet) (s : State) : State :=
  placeRequest .read 0 1
    (fun o => .restoring
      { requested := requested
        remaining := compList requested
        current := none
        loaded := 0
        failed := 0
        waiting := some o }) s

/-- The header has been read (R176): it is refused, or it becomes the image and the components of R follow. -/
def headerResult (p : RestoreProgress) (ok : Bool) (s : State) : State :=
  let h := readHeader s.cu.buffer
  if !ok || !signatureRight s.cu.buffer then endRestore .noImage .none s
  else if !headerValid s.cu.buffer then endRestore .headerInvalid .none s
  else if CompSet.has p.requested 0 && h.frameCount != s.lu.frameCount then endRestore .geometryMismatch .none s
  else
    restoreNext p.remaining p
      (touch 0 { s with
        cu.image := h
        sm.writeSeq := maxSeq s.sm.writeSeq h.writeSeq })

/-- A component's record has been read (R177, R178). -/
def recordResult (c : Fin 6) (p : RestoreProgress) (ok : Bool) (s : State) : State :=
  let e := s.cu.image.entries[c]
  match if ok && recordMatches c e s.cu.buffer then loadRecord c s.cu.buffer e s else none with
  | some s1 => restoreNext p.remaining { p with loaded := p.loaded ||| compBit c } (reportLoaded c s1)
  | none => restoreNext p.remaining (failComponent c p s).1 (failComponent c p s).2

/-- The result of a Restore's checkpoint READ (R176, R177). -/
def restoreResult (p : RestoreProgress) (ok : Bool) (s : State) : State :=
  match p.current with
  | none => headerResult p ok s
  | some c => recordResult c p ok s

/-! ## Rebuild (R180 to R182) -/

/-- The segment of a label, none for EMPTY (R207). -/
def labelSegment (l : FrameLabel) : Option Nat := if l.segment = BitVec.allOnes 64 then none else some l.segment.toNat

/-- The valid set of a label: a FULL label's is whole (R4; DEDUCED, log entry 22). -/
def labelSet (l : FrameLabel) : SectorSet := if l.full then BitVec.allOnes 128 else l.validSet

/-- Whether claim a wins over claim b for one segment (R181). -/
def winsOver (a b : Claim) : Bool :=
  if a.label.writeSeq = b.label.writeSeq then decide (a.frame < b.frame) else decide (b.label.writeSeq < a.label.writeSeq)

/-- A claimant compared with the table (R181): the table, and the frame that loses, if one does. -/
def enterClaim (c : Claim) (table : List Claim) : List Claim × Option Nat :=
  match table.find? fun d => d.segment == c.segment with
  | none => (table ++ [c], none)
  | some d =>
    if winsOver c d then (table.map fun x => if x.segment == c.segment then c else x, some d.frame)
    else (table, some c.frame)

/-- The largest write sequence seen, with one more label (R181). -/
def seenSeq (old : Option (BitVec 48)) (w : BitVec 48) : Option (BitVec 48) :=
  match old with
  | none => some w
  | some o => some (maxSeq o w)

/-- A segment label is classed (R181): out of range or empty, TRIMMING; otherwise a claimant. -/
def classLabel (f segment : Nat) (l : FrameLabel) (p : RebuildProgress) (s : State) : RebuildProgress × State :=
  let p1 := { p with maxSeq := seenSeq p.maxSeq l.writeSeq }
  if lastSegment s < segment || labelSet l == 0 then ({ p1 with trimming := p1.trimming ++ [f] }, s)
  else
    let t := enterClaim ⟨segment, f, l⟩ s.cu.rebuildTable
    ({ p1 with trimming := p1.trimming ++ t.2.toList }, { s with cu.rebuildTable := t.1 })

/-- Whether a frame has its class already, or is a claimant's (R181). -/
def classed (f : Nat) (p : RebuildProgress) (s : State) : Bool :=
  p.trimming.contains f || p.retired.contains f || s.cu.rebuildTable.any fun c => c.frame == f

/-- The label read of frame f classed (R181): an ERROR is RETIRED, and EMPTY is FREE. Each frame is read and classed once. -/
def classFrame (f : Nat) (ok : Bool) (l : FrameLabel) (p : RebuildProgress) (s : State) : RebuildProgress × State :=
  if classed f p s || decide (s.lu.frameCount ≤ f) then (p, s)
  else if !ok then ({ p with retired := p.retired ++ [f] }, bump .retiredFrames s)
  else
    match labelSegment l with
    | none => (p, s)
    | some segment => classLabel f segment l p s

/-- Whether claim a stands before claim b in a list: the lower write sequence first, at equal ones the lower frame number
(R182; DEDUCED, log entry 8). -/
def standsBefore (a b : Claim) : Bool :=
  if a.label.writeSeq = b.label.writeSeq then decide (a.frame < b.frame) else decide (a.label.writeSeq < b.label.writeSeq)

/-- A claim put in its place among claims in ascending write sequence (R182). -/
def insertClaim (c : Claim) : List Claim → List Claim
  | [] => [c]
  | d :: ds => if standsBefore c d then c :: d :: ds else d :: insertClaim c ds

/-- Claims in ascending write sequence of their labels (R182). -/
def sortClaims (cs : List Claim) : List Claim := cs.foldl (fun acc c => insertClaim c acc) []

/-- The entry of a claimant (R182). -/
def claimEntry (epoch : Nat) (c : Claim) : Entry :=
  { segment := c.segment
    frame := c.frame
    state := if c.label.dirty then .dirty else .clean
    validity := validityOf (labelSet c.label)
    generation := c.label.generation
    heat := ⟨0, epoch, false⟩
    absorbs := 0
    flushFailures := 0
    marker := none }

/-- The frames that no class of R181 and no claimant takes: the FREE frames, ascending (R182). -/
def freeFrames (p : RebuildProgress) (s : State) : List Nat :=
  (List.range s.lu.frameCount).filter fun f => !classed f p s

/-- The map a Rebuild assembles (R182). -/
def assembledMap (p : RebuildProgress) (s : State) : SavedMap :=
  { dirty := (sortClaims (s.cu.rebuildTable.filter fun c => c.label.dirty)).map (claimEntry s.hu.epoch)
    clean := (sortClaims (s.cu.rebuildTable.filter fun c => !c.label.dirty)).map (claimEntry s.hu.epoch)
    free := freeFrames p s
    trimming := p.trimming
    retired := p.retired
    writeSeq := s.sm.writeSeq }

/-- The write-sequence counter after a Rebuild (R182). -/
def rebuiltSeq (p : RebuildProgress) (s : State) : BitVec 48 :=
  match p.maxSeq with
  | some w => w + 1
  | none => s.sm.writeSeq

/-- The end of a Rebuild (R182): the assembled C0 is loaded, the Heat Unit reconciles, and the completion goes out. -/
def finishRebuild (p : RebuildProgress) (s : State) : State :=
  let m := assembledMap p s
  let s1 := reconcile (touch 0 (loadMap m (rebuiltSeq p s) s))
  completeLong .rebuild .done
    (.rebuilt (m.dirty.length + m.clean.length) m.dirty.length m.free.length m.trimming.length m.retired.length)
    { s1 with cu.operation := .idle, lu.mode := .offline }

/-- A Rebuild ends when every label read has returned (R182). -/
def rebuildTest (p : RebuildProgress) (s : State) : State :=
  if s.lu.frameCount ≤ p.returned then finishRebuild p s else { s with cu.operation := .rebuilding p }

/-- The result of a label read (R181). -/
def labelResult (f : Nat) (ok : Bool) (l : FrameLabel) (s : State) : State :=
  match s.cu.operation with
  | .rebuilding p =>
    let r := classFrame f ok l { p with returned := p.returned + 1 } s
    rebuildTest r.1 r.2
  | .idle | .quiescing _ _ | .saving _ | .restoreDraining _ | .restoring _ | .rebuildDraining => s

/-- The label reads of a Rebuild begin (R180, steps 3 and 4). -/
def startLabelReads (s : State) : State :=
  let s1 := initComponent 0 { s with cu.rebuildTable := [] }
  let p : RebuildProgress := ⟨0, 0, [], [], none⟩
  if s1.lu.frameCount = 0 then finishRebuild p s1
  else placeLabelReads { s1 with cu.operation := .rebuilding p }

/-! ## Results of checkpoint orders (R170) -/

/-- The bytes a READ has put into the checkpoint buffer: those given, and beyond them what the buffer held. -/
def fillBuffer (data : List Byte) (s : State) : State :=
  { s with cu.buffer := data ++ s.cu.buffer.drop data.length }

/-- The result of a checkpoint order goes to the operation in flight (R170). -/
def checkpointResult (op : Operation) (ok : Bool) (data : List Byte) (s : State) : State :=
  let s1 := if ok && op == .read then fillBuffer data s else s
  match s1.cu.operation with
  | .saving p => saveResult p ok s1
  | .restoring p => restoreResult p ok s1
  | .idle | .quiescing _ _ | .restoreDraining _ | .rebuildDraining | .rebuilding _ => s1

end Sys2Proof.Machine
end

