-- ==== Sys2Proof/Machine/Operands.lean ====
section
/-! DEFINITION. What every record of the Command Link passes before it takes effect: the link's own rule (R204), the tests that a
control transaction meets (R188), and the choices its arguments name (11.1). -/

namespace Sys2Proof.Machine

/-- The outcome type of every command of the 2208. -/
abbrev Outcome := Host.Outcome State Fault Refusal

/-! ## The Command Link (R204) -/

/-- Whether the Link Unit takes a record from the Command Link now (R204): the sum is below 64. -/
def linkRoom (s : State) : Bool := decide (linkSum s < Config.completionCapacity)

/-- A record of the Command Link takes effect when it is taken; behind an untaken record, or while the sum stands at 64, it
waits untaken in link order (R204). -/
def onLink (c : Instr) (effect : State → State) (s : State) : State :=
  if s.untaken.isEmpty && linkRoom s then effect s else { s with untaken := s.untaken ++ [c] }

/-- A Link Reset is taken whatever the sum, but keeps its place in link order (R204). -/
def onLinkInOrder (c : Instr) (effect : State → State) (s : State) : State :=
  if s.untaken.isEmpty then effect s else { s with untaken := s.untaken ++ [c] }

/-! ## The tests of R188 -/

/-- Whether a long transaction other than Reset Engine is in flight (R188). -/
def longInFlight (s : State) : Bool := s.lu.marker != .none && s.lu.marker != .resetEngine

/-- Test 2 of R188: what a Reset Engine in flight lets through. -/
def passesReset : TxnKind → Bool
  | .reportSpindle | .readStatus => true
  | .configure | .loadClass | .loadRange | .setParameter | .setPortLevel | .save | .restore | .rebuild | .goOnline
  | .goOffline | .prefetch | .querySegment | .initializeComponents | .cancelBackground | .resetEngine => false

/-- Test 3 of R188: what a long transaction in flight keeps back. -/
def keptBackByLong : TxnKind → Bool
  | .save | .restore | .rebuild | .goOffline | .configure | .goOnline | .initializeComponents => true
  | .loadClass | .loadRange | .setParameter | .reportSpindle | .setPortLevel | .prefetch | .querySegment | .readStatus
  | .cancelBackground | .resetEngine => false

/-- Test 4: the table of R188. -/
def modeAllows (k : TxnKind) (m : EngineMode) : Bool :=
  match k with
  | .configure => m == .unconfigured || m == .offline
  | .loadClass | .loadRange | .setParameter => m != .unconfigured && m != .restoring
  | .reportSpindle | .setPortLevel | .querySegment | .readStatus | .cancelBackground | .resetEngine => true
  | .save => m == .offline || m == .online
  | .restore | .rebuild | .initializeComponents | .goOnline => m == .offline
  | .goOffline => m == .online
  | .prefetch => m == .online || m == .saving

/-- The tests of R188 in their order (test 1, the kind, is the UNKNOWN_KIND row's own): the reason of the refusal, or none
for an accepted transaction. `check` is the kind's own check of its arguments. -/
def txnRefusal (k : TxnKind) (h : TxnHead) (check : State → Option Reason) (s : State) : Option Reason :=
  if inReset s && !passesReset k then some .busy
  else if longInFlight s && keptBackByLong k then some .busy
  else if !modeAllows k s.lu.mode then some .wrongMode
  else if !h.reservedClear then some .badArgument
  else check s

/-- A refusal (R187, R188): the completion with its reason, and its count (R205). -/
def refuseTxn (code seq : Byte) (r : Reason) (s : State) : State :=
  complete (.transaction code seq .refused r .none) (bump .transactionsRefused s)

/-- The completion of an accepted short transaction, handed over in the same event (R187). -/
def reply (k : TxnKind) (h : TxnHead) (status : TxnStatus) (results : TxnResults) (s : State) : State :=
  complete (.transaction (txnCode k) h.seq status .none results) s

/-- DONE, or DONE_CLAMPED where a value was replaced (R187). -/
def doneStatus (clamped : Bool) : TxnStatus := if clamped then .doneClamped else .done

/-- A control transaction as it is taken (R187, R188): refused by the first test that holds, or accepted. -/
def transact (k : TxnKind) (h : TxnHead) (check : State → Option Reason) (accept : State → State) (s : State) : State :=
  match txnRefusal k h check s with
  | some r => refuseTxn (txnCode k) h.seq r s
  | none => accept s

/-- A control transaction that arrives on the Command Link. -/
def transaction (c : Instr) (k : TxnKind) (h : TxnHead) (check : State → Option Reason) (accept : State → State)
    (s : State) : Outcome :=
  .next (onLink c (transact k h check accept) s)

/-- The check of a kind without arguments. -/
def noCheck (_ : State) : Option Reason := none

/-- A check that fails with BAD_ARGUMENT. -/
def badUnless (ok : Bool) : Option Reason := if ok then none else some .badArgument

/-- A long transaction is accepted: the marker takes its kind and its sequence number is kept for the completion (R187,
R188). -/
def setMarker (m : LongMarker) (h : TxnHead) (s : State) : State := { s with lu.marker := m, lu.markerSeq := h.seq }

/-! ## Arguments -/

/-- The platter state that a Report Spindle names (11.1, R192). -/
def platterStateOf (b : Byte) : Option PlatterState :=
  if b = 0 then some .stopped
  else if b = 1 then some .starting
  else if b = 2 then some .ready
  else if b = 3 then some .stopping
  else if b = 4 then some .parked
  else none

/-- The port that a Set Port Level names (11.1, R192). -/
def portOf (b : Byte) : Option Port := if b = 0 then some .flash else if b = 1 then some .platter else none

/-- Whether a set byte names only components C0..C5 (R193, 11.1). -/
def setInRange (b : Byte) : Bool := decide (b.toNat < 64)

/-- The component set of a set byte (R207). -/
def setOf (b : Byte) : CompSet := b.truncate 6

end Sys2Proof.Machine
end

