-- ==== Sys2Proof/Machine/CheckpointTransactions.lean ====
section
/-! DEFINITION. The meanings of the checkpoint transactions (9.5, chapter 8) and of the events in which their waits end. -/

namespace Sys2Proof.Machine

/-! ## SAVE and QUIESCE_END (R171, R172) -/

/-- A Save accepted in ONLINE makes the Engine Mode SAVING (R171): the Command Tracker holds its pieces (R97) and the Migration
Engine pauses its active move (R127). -/
def enterSaving (s : State) : State :=
  if s.lu.mode = .online then engineEvent (holdForSave { s with lu.mode := .saving }) else s

/-- A Save is accepted: R is formed and the quiesce begins (R171). -/
def beginSave (h : TxnHead) (requested : CompSet) (full : Bool) (s : State) : State :=
  enterSaving (setMarker .save h
    { s with cu.operation := .quiescing (requested &&& s.params.enabled) full })

/-- SAVE (R171, R193). -/
def execSave (h : TxnHead) (requested mode : Byte) (s : State) : Outcome :=
  transaction (.save h requested mode) .save h
    (fun _ => badUnless (setInRange requested && decide (mode.toNat < 2)))
    (beginSave h (setOf requested) (mode == 0)) s

/-- The end of the quiesce where its conditions hold together (R171, R172). -/
def quiesceEndEffect (s : State) : State :=
  match s.cu.operation with
  | .quiescing requested full => if quiesceEnds s then planSave requested full s else s
  | .idle | .saving _ | .restoreDraining _ | .restoring _ | .rebuildDraining | .rebuilding _ => s

/-- QUIESCE_END (R172). -/
def execQuiesceEnd (s : State) : Outcome := .next (quiesceEndEffect s)

/-! ## RESTORE and RESTORE_HEADER_READ (R176) -/

/-- A Restore is accepted: R is formed and the drain of flash frame orders begins (R176, steps 1 to 3). -/
def beginRestore (h : TxnHead) (requested : CompSet) (s : State) : State :=
  setMarker .restore h
    { s with
      lu.mode := .restoring
      cu.operation := .restoreDraining (requested &&& s.params.enabled) }

/-- RESTORE (R176, R193). -/
def execRestore (h : TxnHead) (requested : Byte) (s : State) : Outcome :=
  transaction (.restore h requested) .restore h (fun _ => badUnless (setInRange requested))
    (beginRestore h (setOf requested)) s

/-- The header READ where the flash frame orders have drained (R176, step 4). -/
def restoreHeaderReadEffect (s : State) : State :=
  match s.cu.operation with
  | .restoreDraining requested => if frameOrders s then s else readHeaderBlock requested s
  | .idle | .quiescing _ _ | .saving _ | .restoring _ | .rebuildDraining | .rebuilding _ => s

/-- RESTORE_HEADER_READ (R176). -/
def execRestoreHeaderRead (s : State) : Outcome := .next (restoreHeaderReadEffect s)

/-! ## REBUILD and REBUILD_LABEL_READS (R180) -/

/-- A Rebuild is accepted (R180, steps 1 and 2). -/
def beginRebuild (h : TxnHead) (s : State) : State :=
  setMarker .rebuild h
    { s with
      lu.mode := .rebuilding
      cu.operation := .rebuildDraining }

/-- REBUILD (R180, R193). -/
def execRebuild (h : TxnHead) (s : State) : Outcome :=
  transaction (.rebuild h) .rebuild h noCheck (beginRebuild h) s

/-- The label reads where the flash frame orders have drained (R180, steps 3 and 4). -/
def rebuildLabelReadsEffect (s : State) : State :=
  match s.cu.operation with
  | .rebuildDraining => if frameOrders s then s else startLabelReads s
  | .idle | .quiescing _ _ | .saving _ | .restoreDraining _ | .restoring _ | .rebuilding _ => s

/-- REBUILD_LABEL_READS (R180). -/
def execRebuildLabelReads (s : State) : Outcome := .next (rebuildLabelReadsEffect s)

/-! ## INITIALIZE_COMPONENTS (R183) -/

/-- Initialize Components' own checks (R183, R193). -/
def checkInitialize (named : Byte) (s : State) : Option Reason :=
  if !setInRange named then some .badArgument
  else if CompSet.has (setOf named) 0 && frameOrders s then some .busy
  else none

/-- The named components initialized in order, then the reconciliation (R183). -/
def initializeAll (named : CompSet) (s : State) : State :=
  reconcileIf named ((compList named).foldl (fun t c => initComponent c t) s)

/-- INITIALIZE_COMPONENTS (R183, R193). -/
def execInitializeComponents (h : TxnHead) (named : Byte) (s : State) : Outcome :=
  transaction (.initializeComponents h named) .initializeComponents h (checkInitialize named)
    (fun s => reply .initializeComponents h .done .none (initializeAll (setOf named) s)) s

end Sys2Proof.Machine
end

