-- ==== Sys2Proof/Machine/CommandLink.lean ====
section
/-! DEFINITION. The meanings of the records that arrive on the Command Link other than control transactions: a command descriptor
(4.2), a Link Reset (4.11), a record of an unknown type (R207) and a transaction of an unknown kind (R188). -/

namespace Sys2Proof.Machine

/-! ## COMMAND_DESCRIPTOR -/

/-- The status with which the Engine Mode or a test of R71 refuses a descriptor; none where it is taken (R70, R71). -/
def descriptorRefusal (d : Descriptor) (s : State) : Option CommandStatus :=
  if inReset s || !(s.lu.mode == .online || s.lu.mode == .saving) then some .notOnline
  else if (commandOf d.tag s).isSome then some .tagInUse
  else if d.kind ≠ .flushCache && (d.length.toNat == 0 || decide (8192 < d.length.toNat)) then some .lengthInvalid
  else if d.kind ≠ .flushCache && decide (s.lu.platterSectors < d.start.toNat + d.length.toNat) then some .addressRange
  else none

/-- A refusal is answered at once (R70); it is counted (R205). -/
def refuseDescriptor (d : Descriptor) (status : CommandStatus) (s : State) : State :=
  complete (.command d.tag status .none) (bump .descriptorsRefused s)

/-- The command record a descriptor makes (R73): HELD when it is taken in SAVING. -/
def commandRecord (d : Descriptor) (sequential : Bool) (s : State) : Command :=
  { kind := d.kind
    cls := d.cls.val
    start := d.start.toNat
    length := d.length.toNat
    buffer := d.buffer
    classCopy := s.rc.classes[d.cls]
    sequential := sequential
    held := s.lu.mode == .saving
    pieces := [] }

/-- The Stream Detector's part in a taking (R63, R72 step 5): the sequential mark of a READ or WRITE. -/
def consultFor (d : Descriptor) (s : State) : Bool × State :=
  match d.kind with
  | .read | .write => consultStreams d.start.toNat d.length.toNat s
  | .trim | .flushCache => (false, s)

/-- The slot is occupied under its next use number and the command joins the Arrival List (R72 steps 1 to 3). -/
def occupySlot (tag : Fin 32) (c : Command) (s : State) : State :=
  { s with
    ct.slots := s.ct.slots.set tag ⟨s.ct.slots[tag].useNo + 1, some c⟩
    ct.arrival := s.ct.arrival ++ [tag] }

/-- A taking reported to the Heat Unit (R31, R72 step 6). -/
def countCommand (s : State) : State := if countsCommands s then agingEvent s else s

/-- A FLUSH_CACHE reported to the Stream Detector (R66, R72 step 7). -/
def reportFlushCache (d : Descriptor) (s : State) : State :=
  if d.kind = .flushCache then streamEvent .flushCache s else s

/-- In ONLINE a command is split at once, and a FLUSH_CACHE is tested (R72, R87). -/
def openCommand (d : Descriptor) (s : State) : State :=
  if s.lu.mode = .saving then s
  else if d.kind = .flushCache then testFlushCaches (splitCommand d.tag s)
  else splitCommand d.tag s

/-- A descriptor is taken into its tag slot (R72). -/
def takeDescriptor (d : Descriptor) (s : State) : State :=
  let (sequential, s1) := consultFor d s
  let s2 := occupySlot d.tag (commandRecord d sequential s) s1
  openCommand d (reportFlushCache d (countCommand (bump .commandsTaken s2)))

/-- COMMAND_DESCRIPTOR (R70 to R72). -/
def execCommandDescriptor (d : Descriptor) (s : State) : Outcome :=
  .next (onLink (.commandDescriptor d)
    (fun s =>
      match descriptorRefusal d s with
      | some status => refuseDescriptor d status s
      | none => takeDescriptor d s) s)

/-! ## LINK_RESET -/

/-- The absorbs that a Link Reset has taken back are withdrawn at the Segment Map (R9, R99), in the order in which
they stood in the Flash Foreground queue (DESIGN CHOICE, log entry 31). -/
def withdrawAbsorbs (os : List Order) (s : State) : State :=
  os.foldl
    (fun t o =>
      match o.origin, orderFrame o with
      | .piece _ _ segment _, some f => absorbWithdrawn segment f t
      | _, _ => t) s

/-- The effect of a Link Reset (R99). -/
def linkResetEffect (s : State) : State :=
  let s1 := freeAllSlots (bump .linkResets s)
  let s2 := withdrawAbsorbs (queuedAbsorbs s1) (dropForeground s1)
  engineEvent (streamEvent .linkReset (withdrawYields s2))

/-- LINK_RESET (R99, R204). -/
def execLinkReset (s : State) : Outcome := .next (onLinkInOrder .linkReset linkResetEffect s)

/-! ## Records the Link Unit does not know -/

/-- DISCARDED_RECORD (R207): the record is discarded without an answer, and no counter rises. -/
def execDiscardedRecord (type : Byte) (s : State) : Outcome := .next (onLink (.discardedRecord type) (fun s => s) s)

/-- UNKNOWN_KIND (R188, test 1). -/
def execUnknownKind (kind : Byte) (h : TxnHead) (s : State) : Outcome :=
  .next (onLink (.unknownKind kind h) (refuseTxn kind h.seq .unknownKind) s)

end Sys2Proof.Machine
end

