-- ==== Sys2Proof/Machine/ControlTransactions.lean ====
section
/-! DEFINITION. The meanings of the control transactions of 9.3, 9.4, 9.6 and 9.7, one definition each, with the end of a
drain. -/

namespace Sys2Proof.Machine

/-! ## CONFIGURE (R189) -/

/-- The bounds of FrameCount (R189). -/
def clampFrames (n : Nat) : Nat := clampTo 1024 262144 n

/-- Whether PlatterSectors and CheckpointBlocks lie in their ranges (R189). -/
def configureArguments (platterSectors checkpointBlocks : Nat) : Bool :=
  decide (2 ^ 20 ≤ platterSectors) && decide (platterSectors ≤ 2 ^ 40 - 1) && decide (1 ≤ checkpointBlocks)
    && decide (checkpointBlocks ≤ 1048576)

/-- Configure's own checks (R189): no frame BOUND or TRIMMING in OFFLINE, then the arguments. -/
def checkConfigure (platterSectors checkpointBlocks : Nat) (s : State) : Option Reason :=
  if s.lu.mode = .offline && decide (0 < framesIn .bound s + framesIn .trimming s) then some .busy
  else badUnless (configureArguments platterSectors checkpointBlocks)

/-- The effect of an accepted Configure, before its completion (R189). -/
def configureEffect (frameCount platterSectors checkpointBlocks : Nat) (s : State) : State :=
  let s1 : State :=
    { s with
      lu.frameCount := frameCount
      lu.platterSectors := platterSectors
      lu.checkpointBlocks := checkpointBlocks
      lu.mode := .offline }
  let s2 := reportInitialized 0 (freshMap frameCount s1)
  touch 3 { s2 with
    params := s2.params.derive frameCount
    cu.layout := some (chooseLayout frameCount checkpointBlocks)
    cu.operation := .idle }

/-- The results of a Configure (11.2). -/
def configured (frameCount checkpointBlocks : Nat) : TxnResults :=
  .configured frameCount (chooseLayout frameCount checkpointBlocks) (3 * frameCount / 4) (frameCount / 2)
    (min 64 (frameCount / 16))

/-- CONFIGURE (R189). -/
def execConfigure (h : TxnHead) (frameCount : BitVec 32) (platterSectors : BitVec 64) (checkpointBlocks : BitVec 32)
    (s : State) : Outcome :=
  let n := clampFrames frameCount.toNat
  transaction (.configure h frameCount platterSectors checkpointBlocks) .configure h
    (checkConfigure platterSectors.toNat checkpointBlocks.toNat)
    (fun s =>
      reply .configure h (doneStatus (n != frameCount.toNat)) (configured n checkpointBlocks.toNat)
        (configureEffect n platterSectors.toNat checkpointBlocks.toNat s)) s

/-! ## LOAD_CLASS and LOAD_RANGE (R190) -/

/-- The class record replaced as one event (R60). -/
def storeClass (cls : Nat) (r : ClassRec) (s : State) : State :=
  touch 3 { s with rc.classes := s.rc.classes.setIfInBounds cls r }

/-- LOAD_CLASS (R60, R190). -/
def execLoadClass (h : TxnHead) (cls readWeight writeWeight : Byte) (streamsCount noPromote : Bool) (s : State) :
    Outcome :=
  transaction (.loadClass h cls readWeight writeWeight streamsCount noPromote) .loadClass h
    (fun _ => badUnless (decide (cls.toNat < 16)))
    (fun s =>
      reply .loadClass h .done .none
        (storeClass cls.toNat ⟨readWeight.toNat, writeWeight.toNat, streamsCount, noPromote⟩ s)) s

/-- Load Range's own checks (R190). -/
def checkRange (slot mode action : Byte) (start stop : Nat) (s : State) : Option Reason :=
  badUnless (decide (slot.toNat < 16) && (matchModeOf mode).isSome && (rangeActionOf action).isSome
    && decide (start ≤ stop) && decide (start < s.lu.platterSectors))

/-- The end that a Load Range stores (R190). -/
def storedEnd (stop : Nat) (s : State) : Nat := min stop (s.lu.platterSectors - 1)

/-- The slot replaced as one event (R53). -/
def storeRange (slot : Nat) (r : RangeSlot) (s : State) : State :=
  touch 2 { s with rc.ranges := s.rc.ranges.setIfInBounds slot r }

/-- LOAD_RANGE (R53, R190). -/
def execLoadRange (h : TxnHead) (slot : Byte) (enabled : Bool) (mode action : Byte) (start stop : BitVec 64) (s : State) :
    Outcome :=
  transaction (.loadRange h slot enabled mode action start stop) .loadRange h
    (checkRange slot mode action start.toNat stop.toNat)
    (fun s =>
      let last := storedEnd stop.toNat s
      let clamped := last != stop.toNat
      reply .loadRange h (doneStatus clamped) (.rangeEnd last)
        (storeRange slot.toNat
          ⟨enabled, start.toNat, last, (matchModeOf mode).getD .inside, (rangeActionOf action).getD .pin⟩ s)) s

/-! ## SET_PARAMETER (R191) -/

/-- The Migration Engine hears of DirtyHigh and DirtyLow (R109, R114). -/
def reportDirtyBounds (id : Nat) (s : State) : State :=
  if id = 5 || id = 6 then engineEvent (compareDirty s) else s

/-- SET_PARAMETER (R191). -/
def execSetParameter (h : TxnHead) (id : Byte) (value : BitVec 32) (s : State) : Outcome :=
  transaction (.setParameter h id value) .setParameter h
    (fun s => badUnless (storeParameter s.lu.frameCount id.toNat value.toNat s.params).isSome)
    (fun s =>
      match storeParameter s.lu.frameCount id.toNat value.toNat s.params with
      | some r =>
        reply .setParameter h (doneStatus !r.asSent) r.results
          (reportDirtyBounds id.toNat (touch 3 { s with params := r.params }))
      | none => s) s

/-! ## REPORT_SPINDLE and SET_PORT_LEVEL (R192) -/

/-- REPORT_SPINDLE (R149, R150, R192). -/
def execReportSpindle (h : TxnHead) (state : Byte) (s : State) : Outcome :=
  transaction (.reportSpindle h state) .reportSpindle h
    (fun _ => badUnless (platterStateOf state).isSome)
    (fun s =>
      match platterStateOf state with
      | some p => reply .reportSpindle h .done .none (if p = s.pm.state then s else engineEvent (setPlatter p s))
      | none => s) s

/-- A port's level stored in its scheduler (R143). -/
def storeLevel (p : Port) (level : Nat) (s : State) : State := setSched p { sched p s with level := level } s

/-- SET_PORT_LEVEL (R143, R192). -/
def execSetPortLevel (h : TxnHead) (port level : Byte) (s : State) : Outcome :=
  transaction (.setPortLevel h port level) .setPortLevel h
    (fun _ => badUnless (portOf port).isSome)
    (fun s =>
      match portOf port with
      | some p =>
        let l := min 4 level.toNat
        reply .setPortLevel h (doneStatus (l != level.toNat)) (.level l) (engineEvent (storeLevel p l s))
      | none => s) s

/-! ## GO_ONLINE, GO_OFFLINE and DRAIN_END (R194, R195) -/

/-- GO_ONLINE (R194). -/
def execGoOnline (h : TxnHead) (s : State) : Outcome :=
  transaction (.goOnline h) .goOnline h noCheck
    (fun s => reply .goOnline h .done .none (engineEvent (compareDirty { s with lu.mode := .online }))) s

/-- What each block does when DRAINING begins (R109, R124, R195). -/
def beginDrain (h : TxnHead) (s : State) : State :=
  engineEvent (stopAll .offline (setMarker .goOffline h { s with lu.mode := .draining, me.urgent := false }))

/-- GO_OFFLINE (R195). -/
def execGoOffline (h : TxnHead) (s : State) : Outcome :=
  transaction (.goOffline h) .goOffline h noCheck (beginDrain h) s

/-- Whether the drain of a Go Offline ends (R195). -/
def drainEnds (s : State) : Bool :=
  s.lu.mode == .draining && s.lu.marker == .goOffline && s.ct.arrival.isEmpty && !commandOrders s && (allMoves s).isEmpty
    && mapQuiet s

/-- The end of the drain (R195). -/
def endDrain (s : State) : State := completeLong .goOffline .done .none { s with lu.mode := .offline }

/-- DRAIN_END (R195): the event takes effect where its conditions hold together. -/
def execDrainEnd (s : State) : Outcome := .next (if drainEnds s then endDrain s else s)

/-! ## PREFETCH (R106, R196) -/

/-- One named segment of a Prefetch (R106): the number of new or raised moves so far, and the state. -/
def prefetchOne (acc : Nat × State) (segment : Nat) : Nat × State :=
  let s := acc.2
  if lastSegment s < segment || (evaluate segment s).action == .bypass || (lookup segment s).isSome then acc
  else
    match requestMove segment .directed s with
    | (true, s1) => (acc.1 + 1, s1)
    | (false, s1) => (acc.1, s1)

/-- The named segments of a Prefetch, ascending (R106). -/
def prefetchAll (start count : Nat) (s : State) : Nat × State :=
  ((List.range count).map fun i => start + i).foldl prefetchOne (0, s)

/-- PREFETCH (R106, R196). -/
def execPrefetch (h : TxnHead) (start : BitVec 64) (count : Byte) (s : State) : Outcome :=
  let n := clampTo 1 64 count.toNat
  transaction (.prefetch h start count) .prefetch h noCheck
    (fun s =>
      let r := prefetchAll start.toNat n s
      reply .prefetch h (doneStatus (n != count.toNat)) (.count r.1) (engineEvent r.2)) s

/-! ## QUERY_SEGMENT and READ_STATUS (R197, R198) -/

/-- What Query Segment reports (R197). -/
def segmentReport (segment : Nat) (s : State) : SegmentReport :=
  { entry := (lookup segment s).map fun e => (e, decayedHeat e.heat s)
    candidate :=
      if (lookup segment s).isSome then none
      else (candidateOf segment s).map fun c => (c.heat, decayedHeat c.heat s)
    move := (moveOf segment s).map fun m => (m.number, m.kind, m.state)
    verdict := evaluate segment s }

/-- QUERY_SEGMENT (R197). -/
def execQuerySegment (h : TxnHead) (segment : BitVec 64) (s : State) : Outcome :=
  transaction (.querySegment h segment) .querySegment h noCheck
    (fun s => reply .querySegment h .done (.segment (segmentReport segment.toNat s)) s) s

/-- What Read Status reports (R198). -/
def statusReport (s : State) : StatusReport :=
  { mode := s.lu.mode
    marker := s.lu.marker
    platter := s.pm.state
    degraded := s.pm.degraded
    urgent := s.me.urgent
    heatLimit := s.hu.heatLimit
    moveSpill := s.me.moveSpill
    queueDrop := s.me.queueDrop
    free := framesIn .free s
    bound := framesIn .bound s
    trimming := framesIn .trimming s
    retired := framesIn .retired s
    dirtyCount := s.sm.dirtyCount
    queueLength := s.me.queue.length
    stackDepth := s.me.stack.length
    epoch := s.hu.epoch }

/-- READ_STATUS (R198). -/
def execReadStatus (h : TxnHead) (clear : Bool) (s : State) : Outcome :=
  transaction (.readStatus h clear) .readStatus h noCheck
    (fun s => reply .readStatus h .done (.status (statusReport s)) (if clear then clearSticky s else s)) s

/-! ## CANCEL_BACKGROUND (R124, R199) -/

/-- CANCEL_BACKGROUND (R124, R199). -/
def execCancelBackground (h : TxnHead) (s : State) : Outcome :=
  transaction (.cancelBackground h) .cancelBackground h noCheck
    (fun s =>
      reply .cancelBackground h .done (.count (allMoves s).length) (engineEvent (stopAll .cancel s))) s

end Sys2Proof.Machine
end

