-- ==== Sys2Proof/Machine/Dispatching.lean ====
section
/-! DEFINITION. Dispatch (6.4): eligibility, the arbiter of a port, and the one event in which an order goes out. -/

namespace Sys2Proof.Machine

/-- Whether a Background order is eligible (R139). -/
def orderEligible (p : Port) (o : Order) (s : State) : Bool :=
  match o.origin with
  | .chunk _ _ => o.level.any fun l => decide ((sched p s).level < l)
  | .trim f => inFlight f s == 0
  | .labelUpdate _ _ | .labelRead _ | .checkpoint _ | .piece _ _ _ _ => true

/-- The place of the oldest eligible Background order of a port (R136, R140). -/
def oldestEligible (p : Port) (s : State) : Option Nat :=
  (sched p s).background.findIdx? fun o => orderEligible p o s

/-- What the arbiter of a port chooses (R140): the Foreground head, or the Background order at a place. -/
inductive Choice where
  | nothing
  | foreground
  | background (place : Nat)
  deriving DecidableEq, Repr

/-- The arbiter of a port (R140). -/
def arbiterChoice (p : Port) (s : State) : Choice :=
  match (sched p s).foreground, oldestEligible p s with
  | [], none => .nothing
  | [], some i => .background i
  | _ :: _, none => .foreground
  | _ :: _, some i => if (sched p s).starvation = Config.starvationLimit then .background i else .foreground

/-- Whether a port may dispatch (R138). -/
def mayDispatch (p : Port) (s : State) : Bool :=
  gateOpen p s && decide ((sched p s).outstanding.length < portDepth p)

/-- The label of a flash write to a frame or of a label update, filled in from the entry bound to the frame (R29). -/
def orderLabel (o : Order) (s : State) : Option FrameLabel :=
  match o.origin, o.op, o.address with
  | .piece _ _ _ _, .write, .frame f =>
    (boundEntry f s).map fun e => fillLabel e.segment true (e.generation + 1) (validSet e ||| o.sectors.getD 0) s
  | .chunk _ _, .write, .frame f =>
    (boundEntry f s).map fun e => fillLabel e.segment false e.generation (validSet e ||| o.sectors.getD 0) s
  | .labelUpdate _ _, .labelWrite, .frame f =>
    (boundEntry f s).map fun e => fillLabel e.segment false e.generation (validSet e) s
  | _, _, _ => none

/-- The first id from one on that no outstanding order holds, tried `fuel` times (R141). -/
def freeId : Nat → Byte → List Dispatched → Byte
  | 0, n, _ => n
  | fuel + 1, n, ds => if ds.any fun d => d.id == n then freeId fuel (n + 1) ds else n

/-- The id of the next dispatch of a port (R141). -/
def nextId (q : Scheduler) : Byte := freeId q.outstanding.length (q.lastId + 1) q.outstanding

/-- An order as it is dispatched: its id, its label and the timebase value (R141, steps 1 and 2). -/
def dispatchedOrder (p : Port) (o : Order) (s : State) : Dispatched :=
  ⟨nextId (sched p s), o, orderLabel o s, s.timebase⟩

/-- The write sequence is taken when the order carries a label (R28). -/
def takeLabel (d : Dispatched) (s : State) : State := if d.label.isSome then takeWriteSeq s else s

/-- The order goes out on its port (R141, step 6). -/
def sendOrder (p : Port) (d : Dispatched) (s : State) : State :=
  match p with
  | .flash => { s with flashWire := orderBytes d }
  | .platter => { s with platterWire := orderBytes d }

/-- The order joins the outstanding set and the starvation count changes (R140, R141 step 3). -/
def joinOutstanding (p : Port) (d : Dispatched) (starvation : Nat) (s : State) : State :=
  setSched p
    { sched p s with
      outstanding := (sched p s).outstanding ++ [d]
      lastId := d.id
      starvation := starvation } s

/-- The reports of a dispatch to the Segment Map and to the Platter Monitor (R141, steps 4 and 5). -/
def reportDispatch (p : Port) (d : Dispatched) (s : State) : State :=
  match p with
  | .flash =>
    match orderFrame d.order with
    | some f => frameDispatched f s
    | none => s
  | .platter => reportWork (watchDispatch d.id s)

/-- The dispatch of a flush's first chunk read is its flush start (R117, R141 step 5). -/
def reportFlushStart (d : Dispatched) (s : State) : State :=
  match d.order.origin, d.order.op with
  | .chunk n _, .read => flushStarts n s
  | _, _ => s

/-- The starvation count after a Foreground dispatch (R140). -/
def starvationAfter (p : Port) (s : State) : Nat :=
  if (oldestEligible p s).isSome then (sched p s).starvation + 1 else 0

/-- The Foreground head is dispatched (R141). -/
def dispatchForeground (p : Port) (s : State) : State :=
  match (sched p s).foreground with
  | [] => s
  | o :: rest =>
    let d := dispatchedOrder p o s
    let s1 := takeLabel d s
    let s2 := joinOutstanding p d (starvationAfter p s) (setSched p { sched p s1 with foreground := rest } s1)
    callPass (reportDispatch p d (sendOrder p d s2))

/-- Room that a Background leaving gives out (R136). -/
def roomAfter (p : Port) (s : State) : State :=
  match p with
  | .flash => giveRoom s
  | .platter => s

/-- A Background order is dispatched from its place (R141). -/
def dispatchBackground (p : Port) (i : Nat) (s : State) : State :=
  match (sched p s).background[i]? with
  | none => s
  | some o =>
    let d := dispatchedOrder p o s
    let s1 := takeLabel d s
    let s2 := joinOutstanding p d 0 (setSched p { sched p s1 with background := (sched p s1).background.eraseIdx i } s1)
    engineEvent (roomAfter p (reportFlushStart d (reportDispatch p d (sendOrder p d s2))))

/-- Whether a Background order is a label update that the Segment Map drops at its dispatch (R29, R141 step 1). -/
def droppedAtDispatch (o : Order) (s : State) : Bool :=
  match o.origin with
  | .labelUpdate f g => !updateStands f g s
  | .piece _ _ _ _ | .chunk _ _ | .trim _ | .labelRead _ | .checkpoint _ => false

/-- A label update dropped at dispatch leaves the queue and its room is given out (R141 step 1). -/
def dropUpdate (i : Nat) (s : State) : State :=
  giveRoom { s with fps.background := s.fps.background.eraseIdx i }

/-- One dispatch of a port (R138 to R141). The arbiter chooses again, `fuel` times at most, after each label update that is
dropped. -/
def dispatchLoop (p : Port) : Nat → State → State
  | 0, s => s
  | fuel + 1, s =>
    if !mayDispatch p s then s
    else
      match arbiterChoice p s with
      | .nothing => s
      | .foreground => dispatchForeground p s
      | .background i =>
        if (sched p s).background[i]?.any fun o => droppedAtDispatch o s then
          dispatchLoop p fuel (engineEvent (dropUpdate i s))
        else dispatchBackground p i s

/-- One dispatch of a port: there are no more label updates to drop than orders queued and requests held. -/
def dispatchOne (p : Port) (s : State) : State :=
  dispatchLoop p ((sched p s).background.length + s.held.length + 1) s

end Sys2Proof.Machine
end

