-- ==== Sys2Proof/Machine/Results.lean ====
section
/-! DEFINITION. Order results (6.5, 4.7): a result is matched to its order, reported, and handed to the order's origin. -/

namespace Sys2Proof.Machine

/-- Whether an outcome byte says OK: any value other than 0 is ERROR (R208). -/
def outcomeOk (r : OrderResult) : Bool := r.outcome == 0

/-- The outstanding order of a port that a result's id names (R144). -/
def outstandingOf (p : Port) (id : Byte) (s : State) : Option Dispatched :=
  (sched p s).outstanding.find? fun d => d.id == id

/-- The order of an id leaves the outstanding set (R144). -/
def leaveOutstanding (p : Port) (id : Byte) (s : State) : State :=
  setSched p { sched p s with outstanding := (sched p s).outstanding.filter fun d => d.id != id } s

/-- A part of a piece ends as its result says, where the result is no orphan (R90, R92, R93, R100). -/
def partResult (tag : Fin 32) (useNo : BitVec 16) (segment i : Nat) (port : Port) (ok : Bool) (s : State) : State :=
  if tracked tag useNo s then
    if ok then partOk tag segment i port s else partError tag segment i s
  else s

/-- A flash READ of a piece that returned ERROR (R90, R100): a lost clean copy is counted as a MEDIA_FAULT occurrence and the
part is reissued; a lost dirty copy fails the part. -/
def readFailed (tag : Fin 32) (useNo : BitVec 16) (segment i f : Nat) (v : SectorSet) (s : State) : State :=
  match readError segment f v s with
  | (.lostClean, s1) =>
    let s2 := bump .mediaErrors (occur .mediaFault segment s1)
    if tracked tag useNo s2 then reissue tag segment i s2 else s2
  | (.lostDirty, s1) => partResult tag useNo segment i .flash false (bump .mediaErrors s1)

/-- A flash result of a command piece (R90, R92, R145): its map effect, then its piece. -/
def flashPieceResult (tag : Fin 32) (useNo : BitVec 16) (segment i f : Nat) (d : Dispatched) (ok : Bool) (s : State) :
    State :=
  let v := d.order.sectors.getD 0
  if d.order.op = .write then
    if ok then partResult tag useNo segment i .flash true (absorbOk segment f v s)
    else partResult tag useNo segment i .flash false (bump .mediaErrors (absorbError segment f v s))
  else if ok then partResult tag useNo segment i .flash true s
  else readFailed tag useNo segment i f v s

/-- A result of a command piece (R90 to R93, R100). -/
def pieceResult (tag : Fin 32) (useNo : BitVec 16) (segment i : Nat) (d : Dispatched) (ok : Bool) (s : State) : State :=
  match orderFrame d.order with
  | some f => flashPieceResult tag useNo segment i f d ok s
  | none => partResult tag useNo segment i .platter ok (if ok then s else bump .mediaErrors s)

/-- A result handed to its order's origin (R145, R146). -/
def handToOrigin (d : Dispatched) (r : OrderResult) (s : State) : State :=
  match d.order.origin with
  | .piece tag useNo segment i => pieceResult tag useNo segment i d (outcomeOk r) s
  | .chunk n c => chunkResult n c d.order.op (outcomeOk r) s
  | .trim f => trimResult f (outcomeOk r) s
  | .labelUpdate _ _ => s
  | .labelRead f => labelResult f (outcomeOk r) r.label s
  | .checkpoint _ => checkpointResult d.order.op (outcomeOk r) r.buffer s

/-- The scheduler's reports of a result (R144): the frame's in-flight count, or the service time and the work view. -/
def reportResult (p : Port) (d : Dispatched) (s : State) : State :=
  match p with
  | .flash =>
    match orderFrame d.order with
    | some f => frameReturned f (isTrim d.order) s
    | none => s
  | .platter => reportWork (watchResult d.id (s.timebase - d.time).toNat s)

/-- A result taken from a port (R144 to R147): a result that names no outstanding order is discarded, and so is every result
while a Reset Engine is in flight. -/
def takeResult (p : Port) (r : OrderResult) (s : State) : State :=
  match outstandingOf p r.id s with
  | none => s
  | some d =>
    let s1 := leaveOutstanding p r.id s
    if inReset s then s1 else engineEvent (handToOrigin d r (reportResult p d s1))

end Sys2Proof.Machine
end

