-- ==== Sys2Proof/Machine/Admission.lean ====
section
/-! DEFINITION. Admission (2.5): whether an absent segment is promoted into flash after a piece of it went to the platter. -/

namespace Sys2Proof.Machine

/-- The answers of the Heat Unit to an admission request (R51). -/
inductive Admission where
  | notApplicable
  | directed
  | below
  | promote
  | refused
  deriving DecidableEq, Repr

/-- What the Placement Unit tells the Heat Unit with an admission request (R45): the segment, Hn, and the four facts. -/
structure AdmissionRequest where
  segment    : Nat
  heat       : Nat
  bypass     : Bool
  pin        : Bool
  noPromote  : Bool
  sequential : Bool
  deriving DecidableEq, Repr

/-- Whether the test applies (R45). -/
def admissionApplies (r : AdmissionRequest) (s : State) : Bool :=
  !r.bypass && !r.noPromote && !r.sequential && (moveOf r.segment s).isNone && (lookup r.segment s).isNone

/-- The effective threshold T (R47). -/
def effectiveThreshold (s : State) : Nat :=
  if s.pm.degraded then max 1 (s.params.admitThreshold / 2) else s.params.admitThreshold

/-- The bar that a victim's decayed heat sets (R48). -/
def admissionBar (victimHeat : Nat) (s : State) : Nat := min Config.maxU16 (victimHeat + s.params.hysteresis)

/-- A refused admission is counted (R49). -/
def refuseAdmission (s : State) : Admission × State := (.refused, bump .admissionRefusals s)

/-- A PROMOTE move is requested (R47, R48). -/
def admitPromote (segment : Nat) (s : State) : Admission × State := (.promote, (requestMove segment .promote s).2)

/-- Case (b): room is made by evicting a colder clean entry, or the admission is refused (R48, R49). -/
def admitByEviction (r : AdmissionRequest) (s : State) : Admission × State :=
  match victimScan s with
  | none => refuseAdmission s
  | some (victim, victimHeat) =>
    if r.heat < admissionBar victimHeat s then refuseAdmission s
    else
      match evict victim s with
      | (some _, s1) => admitPromote r.segment s1
      | (none, s1) => refuseAdmission s1

/-- An admission request (R45 to R49): the answer and the state after it. -/
def admission (r : AdmissionRequest) (s : State) : Admission × State :=
  if !admissionApplies r s then (.notApplicable, s)
  else if r.pin then (.directed, (requestMove r.segment .directed s).2)
  else if r.heat < effectiveThreshold s then (.below, s)
  else if s.params.freeReserve < s.sm.freeList.length then admitPromote r.segment s
  else admitByEviction r s

end Sys2Proof.Machine
end

