-- ==== Sys2Proof/Machine/Routing.lean ====
section
/-! DEFINITION. The Placement Unit and the routing pass (4.5, 4.6). An attempt either stops early, leaving its piece WAITING or
HELD, or takes all its effects as one event. -/

namespace Sys2Proof.Machine

/-- The ports on which a piece tried earlier in the same pass was stopped for lack of room (R89). -/
structure Blocked where
  flash   : Bool
  platter : Bool
  deriving DecidableEq, Repr

/-- Whether a port lacks room for the piece being tried (R81 step 3, R89). -/
def lacksRoom (p : Port) (b : Blocked) (s : State) : Bool :=
  match p with
  | .flash => b.flash || !foregroundRoom .flash s
  | .platter => b.platter || !foregroundRoom .platter s

/-- The piece being tried, with what the Placement Unit looked up for it (R81 step 1). -/
structure Attempt where
  tag     : Fin 32
  cmd     : Command
  piece   : Piece
  verdict : Verdict
  deriving DecidableEq, Repr

/-- A piece is stopped with a wait reason (R81). -/
def waitFor (a : Attempt) (w : WaitReason) (s : State) : State :=
  modifyPiece a.tag a.piece.segment (fun p => { p with state := .waiting w }) s

/-- The ports a route uses. -/
def usesPort (p : Port) : Route → Bool
  | .flashRead | .absorb => p == .flash
  | .platterRead | .platterWrite | .platterTrim => p == .platter
  | .splitRead => true

/-- A piece stopped for lack of room records the ports that lacked it (R81 step 3, R89). -/
def stopForRoom (a : Attempt) (flash platter : Bool) (b : Blocked) (s : State) : Blocked × State :=
  (⟨b.flash || flash, b.platter || platter⟩, waitFor a (.room flash platter) s)

/-- The heat update of a READ or WRITE piece (R81 step 6). -/
def routeHeat (a : Attempt) (s : State) : Nat × State := heatUpdate a.piece.segment a.cmd a.verdict.boost s

/-- The piece becomes ISSUED on a route with its parts PLACED (R81 step 7). -/
def issuePiece (a : Attempt) (route : Route) (parts : List OrderPart) (s : State) : State :=
  modifyPiece a.tag a.piece.segment (fun p => { p with state := .issued, route := some route, parts := parts }) s

/-- One order of a piece joins its port's Foreground queue (R81 step 7). -/
def placeOrder (a : Attempt) (i : Nat) (part : OrderPart) (address : Address) (s : State) : State :=
  placeForeground (pieceOrder a.tag s.ct.slots[a.tag].useNo a.cmd a.piece.segment i part address) s

/-- A route of one order takes its place (R81 step 7). -/
def issueOne (a : Attempt) (route : Route) (port : Port) (op : Operation) (address : Address) (s : State) : State :=
  let part : OrderPart := ⟨port, op, a.piece.sectors, .placed⟩
  placeOrder a 0 part address (issuePiece a route [part] s)

/-- The admission that follows a read or write sent to the platter (R81 step 8); the answer does not change the piece. -/
def askAdmission (a : Attempt) (heat : Nat) (s : State) : State :=
  (admission
    { segment := a.piece.segment
      heat := heat
      bypass := a.verdict.action == .bypass
      pin := a.verdict.action == .pin
      noPromote := a.cmd.classCopy.noPromote
      sequential := a.cmd.sequential } s).2

/-- A piece whose segment goes to the platter whole (R82, R84): the heat update, the order, and admission when the segment
has no entry. -/
def issuePlatter (a : Attempt) (route : Route) (op : Operation) (s : State) : State :=
  let absent := (lookup a.piece.segment s).isNone
  let (heat, s1) := routeHeat a s
  let s2 := issueOne a route .platter op (.platter a.piece.segment) s1
  if absent then askAdmission a heat s2 else s2

/-- A platter route, where the port has room (R81 steps 3 and 6 to 8). -/
def tryPlatter (a : Attempt) (route : Route) (op : Operation) (b : Blocked) (s : State) : Blocked × State :=
  if lacksRoom .platter b s then stopForRoom a false true b s else (b, issuePlatter a route op s)

/-! ## READ (R82) -/

/-- The read hit of a CLEAN entry moves it to the Reclaim List tail (R24, R81 step 5). -/
def readHit (e : Entry) (s : State) : State := if e.state = .clean then toReclaimTail e.segment s else s

/-- A read served by flash and platter together (R82). -/
def issueSplit (a : Attempt) (e : Entry) (s : State) : State :=
  let s1 := (routeHeat a (readHit e s)).2
  let flashPart : OrderPart := ⟨.flash, .read, a.piece.sectors &&& validSet e, .placed⟩
  let platterPart : OrderPart := ⟨.platter, .read, setMinus a.piece.sectors (validSet e), .placed⟩
  placeOrder a 1 platterPart (.platter a.piece.segment)
    (placeOrder a 0 flashPart (.frame e.frame) (issuePiece a .splitRead [flashPart, platterPart] s1))

/-- A routing attempt of a READ piece (R82). -/
def tryRead (a : Attempt) (b : Blocked) (s : State) : Blocked × State :=
  match lookup a.piece.segment s with
  | none => tryPlatter a .platterRead .read b s
  | some e =>
    let v := validSet e
    if setMinus a.piece.sectors v = 0 then
      if lacksRoom .flash b s then stopForRoom a true false b s
      else (b, issueOne a .flashRead .flash .read (.frame e.frame) (routeHeat a (readHit e s)).2)
    else if overlaps a.piece.sectors v then
      if lacksRoom .flash b s || lacksRoom .platter b s then
        stopForRoom a (lacksRoom .flash b s) (lacksRoom .platter b s) b s
      else (b, issueSplit a e s)
    else tryPlatter a .platterRead .read b s

/-! ## WRITE (R83 to R85) -/

/-- The frame that a piece awaits, if its wait reason is FRAME (R76). -/
def awaitedFrame (p : Piece) : Option Nat :=
  match p.state with
  | .waiting (.frame f) => some f
  | .waiting .route | .waiting (.room _ _) | .waiting .save | .held _ | .issued | .done | .failed => none

/-- Whether the awaited frame of a piece is still TRIMMING (R85). -/
def stillAwaits (p : Piece) (s : State) : Bool := (awaitedFrame p).any fun f => frameState f s == some .trimming

/-- NO_FRAME for an absorb to an absent segment (R85): the piece evicts and waits for the victim's frame, waits on, or is
served less well by a platter write. -/
def noFrame (a : Attempt) (b : Blocked) (s : State) : Blocked × State :=
  if stillAwaits a.piece s then (b, s)
  else
    match victimScan s with
    | none => tryPlatter a .platterWrite .write b s
    | some (victim, _) =>
      match evict victim s with
      | (some f, s1) => (b, waitFor a (.frame f) s1)
      | (none, s1) => tryPlatter a .platterWrite .write b s1

/-- The ABSORB route, where the Flash Port has room (R81 steps 3 to 7, R83 to R85). -/
def tryAbsorb (a : Attempt) (b : Blocked) (s : State) : Blocked × State :=
  if lacksRoom .flash b s then stopForRoom a true false b s
  else
    match absorbRequest a.piece.segment s with
    | (some f, s1) => (b, issueOne a .absorb .flash .write (.frame f) (routeHeat a s1).2)
    | (none, s1) => noFrame a b s1

/-- Whether a write to a segment with no entry is absorbed (R84). -/
def absorbsAbsent (a : Attempt) (s : State) : Bool :=
  s.pm.state != .ready || s.pm.degraded || a.verdict.action == .pin

/-- A WRITE or TRIM piece that meets an INBOUND entry whose promotion has a chunk order queued or outstanding becomes
HELD, and a yield is requested (R78). -/
def holdByYield (a : Attempt) (s : State) : State :=
  yieldRequest a.piece.segment (modifyPiece a.tag a.piece.segment (fun p => { p with state := .held true }) s)

/-- A routing attempt of a WRITE piece (R83, R84). -/
def tryWrite (a : Attempt) (b : Blocked) (s : State) : Blocked × State :=
  if promotionBusy a.piece.segment s then (b, holdByYield a s)
  else
    match lookup a.piece.segment s with
    | some _ => tryAbsorb a b s
    | none => if absorbsAbsent a s then tryAbsorb a b s else tryPlatter a .platterWrite .write b s

/-! ## TRIM (R86) -/

/-- The order of a TRIM piece at the tail of the Platter Foreground queue, from wherever it stood. -/
def trimToTail (a : Attempt) (s : State) : State :=
  let mine := fun o : Order => o.origin == .piece a.tag s.ct.slots[a.tag].useNo a.piece.segment 0
  { s with
    pps.foreground := s.pps.foreground.filter (fun o => !mine o) ++ s.pps.foreground.filter mine }

/-- A routing attempt of a TRIM piece (R86): the map effect, the report to the Migration Engine, and the platter order, which
stands behind any read that the map effect withdraws (R81, steps 5 and 7). The entry that step 3 found in the queue is kept
for the trim, so that a withdrawn read is placed only where the queue has room beside it (R91; DEDUCED, log entry 12). -/
def tryTrim (a : Attempt) (b : Blocked) (s : State) : Blocked × State :=
  if promotionBusy a.piece.segment s then (b, holdByYield a s)
  else if lacksRoom .platter b s then stopForRoom a false true b s
  else
    (b, trimToTail a
      (trimReport a.piece.segment
        (trimEffect a.piece.segment a.piece.sectors
          (issueOne a .platterTrim .platter .trim (.platter a.piece.segment) s))))

/-! ## The pass (R80) -/

/-- One routing attempt of a WAITING piece (R81). -/
def attemptRoute (a : Attempt) (b : Blocked) (s : State) : Blocked × State :=
  match a.cmd.kind with
  | .read => tryRead a b s
  | .write => tryWrite a b s
  | .trim => tryTrim a b s
  | .flushCache => (b, s)

/-- The index of a piece's UNPLACED part. -/
def unplacedPart (p : Piece) : Option Nat := p.parts.findIdx? fun q => q.state == .unplaced

/-- A reissued part takes its place where the Platter Port has room (R89, R91). -/
def attemptPlace (tag : Fin 32) (segment i : Nat) (b : Blocked) (s : State) : Blocked × State :=
  if lacksRoom .platter b s then ({ b with platter := true }, s) else (b, placePart tag segment i s)

/-- One piece of the pass (R80, R89): a WAITING piece is tried, and so is an UNPLACED part of an ISSUED one. The reports that
the attempt made to the Migration Engine are followed by its tests (R114). -/
def tryPiece (tag : Fin 32) (segment : Nat) (acc : Blocked × State) : Blocked × State :=
  match commandOf tag acc.2, pieceOf tag segment acc.2 with
  | some c, some p =>
    match p.state with
    | .waiting .save => acc
    | .waiting .route | .waiting (.room _ _) | .waiting (.frame _) =>
      let r := attemptRoute ⟨tag, c, p, evaluate segment acc.2⟩ acc.1 acc.2
      (r.1, engineEvent r.2)
    | .issued =>
      match unplacedPart p with
      | some i => attemptPlace tag segment i acc.1 acc.2
      | none => acc
    | .held _ | .done | .failed => acc
  | _, _ => acc

/-- The pieces of one command, in ascending segment order (R80). -/
def tryCommand (acc : Blocked × State) (tag : Fin 32) : Blocked × State :=
  match commandOf tag acc.2 with
  | some c => (c.pieces.map Piece.segment).foldl (fun acc segment => tryPiece tag segment acc) acc
  | none => acc

/-- A routing pass down the Arrival List (R80); the call for it is answered before it begins, so an event within the pass
calls for another. -/
def routingPass (s : State) : State :=
  (s.ct.arrival.foldl tryCommand (⟨false, false⟩, { s with ct.passDue := false })).2

end Sys2Proof.Machine
end

