-- ==== Sys2Proof/Machine/Events.lean ====
section
/-! DEFINITION. The meanings of the events that no record of the Command Link brings: time, the quiet platter, routing passes,
dispatches and results of media orders, and the Response Link. -/

namespace Sys2Proof.Machine

/-! ## Time -/

/-- MILLISECOND_TICK (1.5, R31, R158): a millisecond of the timebase, of the time residue and of a running quiet timer. -/
def execMillisecondTick (s : State) : Outcome :=
  .next (quietTick (residueTick { s with timebase := s.timebase + 1 }))

/-- The aging event of one second that the time residue has ended (R31). Met in an Engine Mode that counts none, the second is
used up uncounted (DESIGN CHOICE, log entry 5). -/
def timeAgingEffect (s : State) : State :=
  if s.hu.secondsDue = 0 then s else agingEvent { s with hu.secondsDue := s.hu.secondsDue - 1 }

/-- TIME_AGING_EVENT (R31). -/
def execTimeAgingEvent (s : State) : Outcome := .next (timeAgingEffect s)

/-- Whether the quiet timer stands at QuietTime with the marker ARMED (R159). -/
def quietDue (s : State) : Bool := s.pm.quietReached && quietRuns s && s.pm.quietArmed && !inReset s

/-- The PLATTER_QUIET occurrence (R159): the marker becomes SPENT. -/
def platterQuietEffect (s : State) : State :=
  if quietDue s then occur .platterQuiet (platterCode .ready) { s with pm.quietArmed := false } else s

/-- PLATTER_QUIET (R159). -/
def execPlatterQuiet (s : State) : Outcome := .next (platterQuietEffect s)

/-! ## Routing and the media ports -/

/-- Whether a routing pass is made now (R80): one has been called for, and the Engine Mode is not SAVING. -/
def passMade (s : State) : Bool := s.ct.passDue && s.lu.mode != .saving

/-- ROUTING_PASS (R80). -/
def execRoutingPass (s : State) : Outcome := .next (if passMade s then routingPass s else s)

/-- ORDER_DISPATCH (R138 to R141). -/
def execOrderDispatch (port : Port) (s : State) : Outcome := .next (dispatchOne port s)

/-- ORDER_RESULT (R144 to R147). -/
def execOrderResult (port : Port) (r : OrderResult) (s : State) : Outcome := .next (takeResult port r s)

/-! ## The Response Link (R204) -/

/-- The head of the completion queue is sent (R204). -/
def sendCompletion (c : Completion) (rest : List Completion) (s : State) : State :=
  { s with
    lu.completions := rest
    responseWire := completionBytes s.freeIndex c
    freeIndex := s.freeIndex + freeValuesOf c }

/-- A place freed in the notice queue takes the kind at the head of the deferred list (R203). -/
def postDeferred (s : State) : State :=
  match s.lu.deferred with
  | [] => s
  | k :: ks => post k { s with lu.deferred := ks }

/-- The head of the notice queue is sent and counted (R203, R204, R205). -/
def sendNotice (n : Notice) (rest : List Notice) (s : State) : State :=
  postDeferred (bump (.noticesSent n.kind) { s with lu.notices := rest, responseWire := noticeBytes n })

/-- The Response Link takes a record (R204): the head completion, otherwise the head notice. -/
def sendRecord (s : State) : State :=
  match s.lu.completions, s.lu.notices with
  | c :: cs, _ => sendCompletion c cs s
  | [], n :: ns => sendNotice n ns s
  | [], [] => s

/-- RESPONSE_LINK_SEND (R204). -/
def execResponseLinkSend (s : State) : Outcome := .next (sendRecord s)

end Sys2Proof.Machine
end

