-- ==== Sys2Proof/Machine/Resets.lean ====
section
/-! DEFINITION. The resets of the whole part: power-on (R186) and Reset Engine from its taking to its end (R200). -/

namespace Sys2Proof.Machine

/-- POWER_ON_RESET (R186, R206): every block takes its power-on values. What lies outside the part stays: the commands to come,
and the numbering of free values. -/
def execPowerOnReset (s : State) : Outcome :=
  .next { State.reset with freeIndex := s.freeIndex, pending := s.pending }

/-- The scheduler of a port with every queued order taken back, without reports (R137, R147). -/
def emptyQueues (q : Scheduler) : Scheduler := { q with foreground := [], background := [] }

/-- What every block does when a Reset Engine is taken (R98, R147, R170, R200). -/
def beginReset (h : TxnHead) (s : State) : State :=
  let s1 := freeAllSlots (setMarker .resetEngine h s)
  { s1 with
    ct.passDue := false
    fps := emptyQueues s1.fps
    held := []
    pps := emptyQueues s1.pps
    cu.operation := .idle }

/-- RESET_ENGINE (R200). -/
def execResetEngine (h : TxnHead) (s : State) : Outcome :=
  transaction (.resetEngine h) .resetEngine h noCheck (beginReset h) s

/-- Whether a Reset Engine ends: both ports are drained (R147, R200). -/
def resetEnds (s : State) : Bool := inReset s && s.fps.outstanding.isEmpty && s.pps.outstanding.isEmpty

/-- The end of a Reset Engine (R200, R206): every block takes its power-on values, and the completion joins those that wait on
the Response Link. What no rule resets is kept: the timebase, the records last sent, the records untaken on the Command Link,
and the model's own fields. -/
def endReset (s : State) : State :=
  { State.reset with
    lu := { LinkUnit.initial with
      completions := s.lu.completions
        ++ [.transaction (txnCode .resetEngine) s.lu.markerSeq .done .none .none] }
    timebase := s.timebase
    responseWire := s.responseWire
    flashWire := s.flashWire
    platterWire := s.platterWire
    untaken := s.untaken
    freeIndex := s.freeIndex
    pending := s.pending }

/-- RESET_ENGINE_END (R200). -/
def execResetEngineEnd (s : State) : Outcome := .next (if resetEnds s then endReset s else s)

end Sys2Proof.Machine
end

