-- ==== Sys2Proof/Machine/Dispatch.lean ====
section
/-! DEFINITION. The meaning of every command: one arm per constructor of `Instr`, each one direct call. -/

namespace Sys2Proof.Machine

/-- A command's effect on everything but the queue of commands to come. -/
def exec (i : Instr) (s : State) : Host.Outcome State Fault Refusal :=
  match i with
  | .powerOnReset => Sys2Proof.Machine.execPowerOnReset s
  | .commandDescriptor d => Sys2Proof.Machine.execCommandDescriptor d s
  | .linkReset => Sys2Proof.Machine.execLinkReset s
  | .discardedRecord type => Sys2Proof.Machine.execDiscardedRecord type s
  | .unknownKind kind h => Sys2Proof.Machine.execUnknownKind kind h s
  | .configure h frameCount platterSectors checkpointBlocks => Sys2Proof.Machine.execConfigure h frameCount platterSectors checkpointBlocks s
  | .loadClass h cls readWeight writeWeight streamsCount noPromote => Sys2Proof.Machine.execLoadClass h cls readWeight writeWeight streamsCount noPromote s
  | .loadRange h slot enabled mode action start stop => Sys2Proof.Machine.execLoadRange h slot enabled mode action start stop s
  | .setParameter h id value => Sys2Proof.Machine.execSetParameter h id value s
  | .reportSpindle h state => Sys2Proof.Machine.execReportSpindle h state s
  | .setPortLevel h port level => Sys2Proof.Machine.execSetPortLevel h port level s
  | .save h requested mode => Sys2Proof.Machine.execSave h requested mode s
  | .quiesceEnd => Sys2Proof.Machine.execQuiesceEnd s
  | .restore h requested => Sys2Proof.Machine.execRestore h requested s
  | .restoreHeaderRead => Sys2Proof.Machine.execRestoreHeaderRead s
  | .rebuild h => Sys2Proof.Machine.execRebuild h s
  | .rebuildLabelReads => Sys2Proof.Machine.execRebuildLabelReads s
  | .initializeComponents h named => Sys2Proof.Machine.execInitializeComponents h named s
  | .goOnline h => Sys2Proof.Machine.execGoOnline h s
  | .goOffline h => Sys2Proof.Machine.execGoOffline h s
  | .drainEnd => Sys2Proof.Machine.execDrainEnd s
  | .prefetch h start count => Sys2Proof.Machine.execPrefetch h start count s
  | .querySegment h segment => Sys2Proof.Machine.execQuerySegment h segment s
  | .readStatus h clear => Sys2Proof.Machine.execReadStatus h clear s
  | .cancelBackground h => Sys2Proof.Machine.execCancelBackground h s
  | .resetEngine h => Sys2Proof.Machine.execResetEngine h s
  | .resetEngineEnd => Sys2Proof.Machine.execResetEngineEnd s
  | .millisecondTick => Sys2Proof.Machine.execMillisecondTick s
  | .timeAgingEvent => Sys2Proof.Machine.execTimeAgingEvent s
  | .platterQuiet => Sys2Proof.Machine.execPlatterQuiet s
  | .routingPass => Sys2Proof.Machine.execRoutingPass s
  | .orderDispatch port => Sys2Proof.Machine.execOrderDispatch port s
  | .orderResult port r => Sys2Proof.Machine.execOrderResult port r s
  | .responseLinkSend => Sys2Proof.Machine.execResponseLinkSend s

end Sys2Proof.Machine
end

