-- ==== Sys2Proof/Machine/Step.lean ====
section
/-! DEFINITION. One step of the block: the command at the front of its queue, or, on an empty queue, the first record that waits
untaken on the Command Link. -/

namespace Sys2Proof.Machine

/-- A record that waits untaken is taken where the Link Unit can take it now (R204); the records behind it keep their order. -/
def takeUntaken (c : Instr) (rest : List Instr) (s : State) : Host.Outcome State Fault Refusal :=
  match exec c { s with untaken := [] } with
  | .next t => .next { t with untaken := t.untaken ++ rest }
  | .fault f => .fault f
  | .refused r => .refused r

/-- One step: the command at the front of the queue takes effect with the queue's rest. On an empty queue the block takes the
first untaken record where it can, and idles otherwise. -/
def step (s : State) : Host.Outcome State Fault Refusal :=
  match s.pending with
  | c :: cs => exec c { s with pending := cs }
  | [] =>
    match s.untaken with
    | c :: cs => takeUntaken c cs s
    | [] => .next s

/-- A state with the command that a word of the opcode table spells put at the front of its queue; unchanged where the word
spells none. -/
def State.withFetchWord (s : State) (nbits w : Nat) : State :=
  match Sys2Proof.decodeTableWord nbits w with
  | some c => { s with pending := c :: s.pending }
  | none => s

end Sys2Proof.Machine
end

