-- ==== Sys2Proof/Safety.lean ====
section
/-! DEFINITION. The terms in which statements about the 2208 are made: when a record can be taken, what a control transaction is,
which Engine Modes go with which operation of the Checkpoint Unit, and when the Migration Engine has nothing to do. -/

namespace Sys2Proof.Machine

/-! ## Taking a record -/

/-- The Command Link's next record can be taken (R204): none stands untaken before it and the sum is below 64. -/
def linkReady (s : State) : Prop := s.untaken = [] ∧ linkSum s < 64

/-- The state in which a completion has been handed over and all else is as it was. -/
def withCompletion (r : Completion) (s : State) : State := { s with lu.completions := s.lu.completions ++ [r] }

/-- The state after a refused transaction: its completion, and its count. -/
def afterRefusal (code seq : Byte) (r : Reason) (s : State) : State :=
  withCompletion (.transaction code seq .refused r .none) (bump .transactionsRefused s)

/-- The kind and the head of a command that is a control transaction of a known kind. -/
def txnOf : Instr → Option (TxnKind × TxnHead)
  | .configure h _ _ _ => some (.configure, h)
  | .loadClass h _ _ _ _ _ => some (.loadClass, h)
  | .loadRange h _ _ _ _ _ _ => some (.loadRange, h)
  | .setParameter h _ _ => some (.setParameter, h)
  | .reportSpindle h _ => some (.reportSpindle, h)
  | .setPortLevel h _ _ => some (.setPortLevel, h)
  | .save h _ _ => some (.save, h)
  | .restore h _ => some (.restore, h)
  | .rebuild h => some (.rebuild, h)
  | .goOnline h => some (.goOnline, h)
  | .goOffline h => some (.goOffline, h)
  | .prefetch h _ _ => some (.prefetch, h)
  | .querySegment h _ => some (.querySegment, h)
  | .readStatus h _ => some (.readStatus, h)
  | .initializeComponents h _ => some (.initializeComponents, h)
  | .cancelBackground h => some (.cancelBackground, h)
  | .resetEngine h => some (.resetEngine, h)
  | .powerOnReset | .commandDescriptor _ | .linkReset | .discardedRecord _ | .unknownKind _ _ | .quiesceEnd
  | .restoreHeaderRead | .rebuildLabelReads | .drainEnd | .resetEngineEnd | .millisecondTick | .timeAgingEvent
  | .platterQuiet | .routingPass | .orderDispatch _ | .orderResult _ _ | .responseLinkSend => none

/-- The Engine Modes in which a transaction passes test 4 of R188: its table, row by row. -/
def allowedModes : TxnKind → List EngineMode
  | .configure => [.unconfigured, .offline]
  | .loadClass | .loadRange | .setParameter => [.offline, .rebuilding, .online, .saving, .draining]
  | .save => [.offline, .online]
  | .restore | .rebuild | .initializeComponents | .goOnline => [.offline]
  | .goOffline => [.online]
  | .prefetch => [.online, .saving]
  | .reportSpindle | .setPortLevel | .querySegment | .readStatus | .cancelBackground | .resetEngine =>
    [.unconfigured, .offline, .restoring, .rebuilding, .online, .saving, .draining]

/-- The transactions that a long transaction in flight keeps back (R188, test 3). -/
def keptBack : List TxnKind :=
  [.save, .restore, .rebuild, .goOffline, .configure, .goOnline, .initializeComponents]

/-- A transaction of a known kind passes tests 2 to 4 of R188, and no reserved field of its record is set (R208). -/
def passesTests (k : TxnKind) (h : TxnHead) (s : State) : Prop :=
  (s.lu.marker = .resetEngine → k = .reportSpindle ∨ k = .readStatus)
    ∧ (s.lu.marker ≠ .none → s.lu.marker ≠ .resetEngine → k ∉ keptBack)
    ∧ s.lu.mode ∈ allowedModes k ∧ h.reservedClear = true

/-- A transaction is taken and passes all the tests that do not look at its arguments. -/
def mayTake (k : TxnKind) (h : TxnHead) (s : State) : Prop := linkReady s ∧ passesTests k h s

/-- The completion of a transaction that is answered DONE, or DONE_CLAMPED where a value was replaced (R187). -/
def answered (code : Byte) (h : TxnHead) (clamped : Bool) (results : TxnResults) : Completion :=
  .transaction code h.seq (if clamped then .doneClamped else .done) .none results

/-- The state after a refused descriptor: its completion, and its count (R70). -/
def afterDescriptorRefusal (d : Descriptor) (status : CommandStatus) (s : State) : State :=
  withCompletion (.command d.tag status .none) (bump .descriptorsRefused s)

/-- The Arrival List holds exactly the tags of the occupied slots, each once (R74). -/
def arrivalExact (s : State) : Prop :=
  s.ct.arrival.Nodup ∧ ∀ t : Fin 32, t ∈ s.ct.arrival ↔ (commandOf t s).isSome = true

/-! ## Parameters -/

/-- The value that Set Parameter stores for an id other than 5 and 6 (R191): a number clamped to its range, a choice or its
default, a set without the members it does not define. None for 5 and 6, and for an id that names no parameter. -/
def storedNumber (frameCount : Nat) (id v : Nat) : Option Nat :=
  match id with
  | 1 | 8 => some (max 1 (min 65535 v))
  | 2 => some (min 65535 v)
  | 3 => some (max 1 (min 16 v))
  | 4 => some (min frameCount v)
  | 7 => some (if v ≤ 2 then v else 1)
  | 9 => some (if v ≤ 1 then v else 0)
  | 10 => some (max 256 (min 65535 v))
  | 11 => some (v % 16)
  | 12 => some (max 10 (min 5000 v))
  | 13 => some (max 8 (min 63 v))
  | 14 => some (v % 4)
  | 15 => some (max 100 (min 60000 v))
  | 16 | 17 | 18 | 19 | 20 | 21 | 22 | 23 => some (min 15 v)
  | 24 => some (v % 64)
  | _ => none

/-- The parameter of an id 1..24 as a number (11.1, 11.4). -/
def parameterValue (id : Nat) (p : Params) : Nat := (parameterValues p).getD (id - 1) 0

/-- Every parameter lies in its range (R191); the derived ones are 0 before Configure. -/
def paramsInRange (s : State) : Prop :=
  let p := s.params
  1 ≤ p.admitThreshold ∧ p.admitThreshold ≤ 65535 ∧ p.hysteresis ≤ 65535 ∧ 1 ≤ p.scanWindow ∧ p.scanWindow ≤ 16
    ∧ p.freeReserve ≤ s.lu.frameCount ∧ p.dirtyHigh ≤ s.lu.frameCount
    ∧ (s.lu.mode ≠ .unconfigured → 1 ≤ p.dirtyHigh ∧ p.dirtyLow < p.dirtyHigh)
    ∧ 1 ≤ p.epochSpan ∧ p.epochSpan ≤ 65535 ∧ 256 ≤ p.streamThreshold ∧ p.streamThreshold ≤ 65535
    ∧ 10 ≤ p.latencyLimit ∧ p.latencyLimit ≤ 5000 ∧ 8 ≤ p.degradeThreshold ∧ p.degradeThreshold ≤ 63
    ∧ 100 ≤ p.quietTime ∧ p.quietTime ≤ 60000 ∧ ∀ k : Fin 8, p.noticeSkip[k] ≤ 15

/-! ## The Engine Mode, the marker and the Checkpoint Unit's operation -/

/-- The Engine Modes and markers that go with an operation of the Checkpoint Unit outside a Reset Engine (R186, R188). -/
def modeFits (m : EngineMode) (marker : LongMarker) : CuOperation → Prop
  | .idle =>
    (marker = .none ∧ (m = .unconfigured ∨ m = .offline ∨ m = .online)) ∨ (marker = .goOffline ∧ m = .draining)
  | .quiescing _ _ | .saving _ => marker = .save ∧ (m = .offline ∨ m = .saving)
  | .restoreDraining _ | .restoring _ => marker = .restore ∧ m = .restoring
  | .rebuildDraining | .rebuilding _ => marker = .rebuild ∧ m = .rebuilding

/-- The Engine Mode, the marker and the operation agree; while a Reset Engine is in flight the operation is idle and the mode
is whatever it was (R200). Outside UNCONFIGURED a Configure has given FrameCount, at least 1024 (R189). -/
def modeConsistent (s : State) : Prop :=
  (if s.lu.marker = .resetEngine then s.cu.operation = .idle else modeFits s.lu.mode s.lu.marker s.cu.operation)
    ∧ (s.lu.mode ≠ .unconfigured → 1024 ≤ s.lu.frameCount)

/-- The changes of the Engine Mode that the table of R186 gives, each with the commands that can make it. -/
def modeChange : Instr → EngineMode → EngineMode → Prop
  | .configure _ _ _ _, a, b => (a = .unconfigured ∨ a = .offline) ∧ b = .offline
  | .goOnline _, a, b => a = .offline ∧ b = .online
  | .save _ _ _, a, b => a = .online ∧ b = .saving
  | .quiesceEnd, a, b => a = .saving ∧ b = .online
  | .restore _ _, a, b => a = .offline ∧ b = .restoring
  | .rebuild _, a, b => a = .offline ∧ b = .rebuilding
  | .goOffline _, a, b => a = .online ∧ b = .draining
  | .drainEnd, a, b => a = .draining ∧ b = .offline
  | .orderResult _ _, a, b =>
    (a = .saving ∧ b = .online) ∨ (a = .restoring ∧ b = .offline) ∨ (a = .rebuilding ∧ b = .offline)
  | .resetEngineEnd, _, b => b = .unconfigured
  | .powerOnReset, _, b => b = .unconfigured
  | .commandDescriptor _, _, _ | .linkReset, _, _ | .discardedRecord _, _, _ | .unknownKind _ _, _, _
  | .loadClass _ _ _ _ _ _, _, _ | .loadRange _ _ _ _ _ _ _, _, _ | .setParameter _ _ _, _, _
  | .reportSpindle _ _, _, _ | .setPortLevel _ _ _, _, _ | .restoreHeaderRead, _, _ | .rebuildLabelReads, _, _
  | .initializeComponents _ _, _, _ | .prefetch _ _ _, _, _ | .querySegment _ _, _, _ | .readStatus _ _, _, _
  | .cancelBackground _, _, _ | .resetEngine _, _, _ | .millisecondTick, _, _ | .timeAgingEvent, _, _
  | .platterQuiet, _, _ | .routingPass, _, _ | .orderDispatch _, _, _ | .responseLinkSend, _, _ => False

/-! ## The Migration Engine at rest -/

/-- No piece of any command is HELD by a yield request. -/
def noYieldHeld (s : State) : Prop :=
  ∀ (t : Fin 32) (c : Command), commandOf t s = some c → ∀ p ∈ c.pieces, p.state ≠ .held true

/-- The Migration Engine has nothing to do: no move, no slot, no urgent mode, and the platter is not READY. -/
def engineAtRest (s : State) : Prop :=
  s.me.active = none ∧ s.me.queue = [] ∧ s.me.stack = [] ∧ s.me.slot0 = none ∧ s.me.slot1 = none
    ∧ s.me.urgent = false ∧ s.pm.state ≠ .ready ∧ noYieldHeld s

/-! ## The moves and the work view -/

/-- The level of a move's kind (R102). -/
def moveLevel (m : Move) : Nat :=
  match m.kind with
  | .promote => 1
  | .flush => 2
  | .directed => 3
  | .urgent => 4

/-- The moves in their places: each has its own number and its own segment (R104); those of the Move Queue are PENDING, at most 32,
in order of level (R103, R111); those of the Move Stack are SUSPENDED, at most 2, each above the one below it and all below
the active move (R121); and the active move is ACTIVE or PAUSED. -/
def movesExact (s : State) : Prop :=
  ((allMoves s).map Move.number).Nodup ∧ ((allMoves s).map Move.segment).Nodup
    ∧ s.me.queue.length ≤ 32 ∧ (∀ m ∈ s.me.queue, m.state = .pending)
    ∧ s.me.queue.Pairwise (fun a b => moveLevel b ≤ moveLevel a)
    ∧ s.me.stack.length ≤ 2 ∧ (∀ m ∈ s.me.stack, m.state = .suspended)
    ∧ (s.me.active.toList ++ s.me.stack).Pairwise (fun a b => moveLevel b < moveLevel a)
    ∧ ∀ m, s.me.active = some m → m.state = .active ∨ m.state = .paused

/-- Each of the four facts of the work view is as its table says (R151). -/
def workViewTrue (s : State) : Prop :=
  s.pm.foregroundWaiting = !s.pps.foreground.isEmpty
    ∧ s.pm.platterWork = (!s.pps.foreground.isEmpty || !s.pps.background.isEmpty || !s.pps.outstanding.isEmpty)
    ∧ s.pm.movesExist = !(allMoves s).isEmpty
    ∧ s.pm.urgentMove = (allMoves s).any fun m => m.kind == .urgent

/-! ## The map and its lists -/

/-- Every frame of the Frame Table is accounted for as R20 says: the FREE frames are those of the Free Frame List, each once, and
the BOUND frames those that an entry names, each by one entry. -/
def framesExact (s : State) : Prop :=
  s.sm.frames.length = s.lu.frameCount
    ∧ s.sm.freeList.Nodup ∧ (∀ f, f ∈ s.sm.freeList ↔ frameState f s = some .free)
    ∧ (s.sm.entries.map Entry.frame).Nodup
    ∧ ∀ f, frameState f s = some .bound ↔ ∃ e ∈ s.sm.entries, e.frame = f

/-- The map has one entry a segment, in ascending order; the Reclaim List holds the CLEAN entries, each once (R24), the Dirty List
the DIRTY ones, each once, and the dirty count is the number of the DIRTY and FLUSHING entries (R25). -/
def listsExact (s : State) : Prop :=
  (s.sm.entries.map Entry.segment).Pairwise (· < ·)
    ∧ s.sm.reclaim.Nodup ∧ (∀ g, g ∈ s.sm.reclaim ↔ ∃ e ∈ s.sm.entries, e.segment = g ∧ e.state = .clean)
    ∧ s.sm.dirty.Nodup ∧ (∀ g, g ∈ s.sm.dirty ↔ ∃ e ∈ s.sm.entries, e.segment = g ∧ e.state = .dirty)
    ∧ s.sm.dirtyCount = s.sm.entries.countP fun e => e.state == .dirty || e.state == .flushing

/-- While a Rebuild reads labels, each frame it has classed or entered in the rebuild table stands there once, and the table holds
one claimant a segment (R181). -/
def rebuildExact (s : State) : Prop :=
  ∀ p, s.cu.operation = .rebuilding p →
    (s.cu.rebuildTable.map Claim.frame ++ p.trimming ++ p.retired).Nodup
      ∧ (∀ f ∈ s.cu.rebuildTable.map Claim.frame ++ p.trimming ++ p.retired, f < s.lu.frameCount)
      ∧ (s.cu.rebuildTable.map Claim.segment).Nodup

/-- The Segment Map agrees with itself, and so does a Rebuild under way. -/
def mapExact (s : State) : Prop := framesExact s ∧ listsExact s ∧ rebuildExact s

/-! ## Bounds and tables -/

/-- The stream records as R62 and R65 leave them: no two valid ones hold the same next expected LBA or the same rank, and
the ranks of n valid ones lie below n. -/
def streamsWf (v : Vector StreamRec 8) : Prop :=
  (∀ i j : Fin 8, i ≠ j → v[i].valid = true → v[j].valid = true → v[i].next ≠ v[j].next ∧ v[i].rank ≠ v[j].rank)
    ∧ ∀ i : Fin 8, v[i].valid = true → v[i].rank < v.toList.countP fun r => r.valid

/-- The Candidate Table as R38 describes it: each full way at its place in the set of its segment, in ascending order. -/
def candidatesWf (cs : List Candidate) : Prop :=
  (cs.map Candidate.place).Pairwise (· < ·) ∧ (cs.map Candidate.segment).Nodup
    ∧ ∀ c ∈ cs, c.place / 4 = c.segment % 1024

/-- Every statistics counter is at most 4,294,967,295 (R205). -/
def countersBounded (s : State) : Prop := ∀ i : Fin 32, s.stats[i] ≤ 4294967295

/-- One scheduler's bounds: 64 Foreground and 16 Background orders (R135, R136), PortDepth outstanding (R138), a starvation
count of 16 (R140) and a port level of 4 (R143). -/
def schedulerBounded (depth : Nat) (q : Scheduler) : Prop :=
  q.foreground.length ≤ 64 ∧ q.background.length ≤ 16 ∧ q.outstanding.length ≤ depth ∧ q.starvation ≤ 16 ∧ q.level ≤ 4

/-- Both schedulers keep their bounds; PortDepth is 8 for the Flash Port and 4 for the Platter Port (R138). -/
def portsBounded (s : State) : Prop := schedulerBounded 8 s.fps ∧ schedulerBounded 4 s.pps

/-- The notice queue holds at most 8 notices, and the deferred list each kind at most once (R203). -/
def noticesBounded (s : State) : Prop := s.lu.notices.length ≤ 8 ∧ s.lu.deferred.Nodup

end Sys2Proof.Machine
end

