-- ==== Sys2Proof/Certificates/Slice0/Obligations.lean ====
section
/-! DEFINITION. The statements about the 2208 for the provers, chapter by chapter. A statement about a record of the Command Link
holds where the record is taken (`linkReady`, `mayTake`); when it is not taken is `RecordsWaitUntaken`'s. -/

open Sys2Proof Sys2Proof.Machine

/-! ## The machine -/

/-- A step with a command at the front of the queue is that command's effect on the state with the queue's rest. -/
def Obligations.StepTakesFrontCommand : Prop :=
  ∀ (c : Instr) (s : State), step { s with pending := c :: s.pending } = exec c s

/-- On an empty queue the block idles, or takes the first record that waits untaken on the Command Link; an event of the part
that is not due changes nothing. The model's choices (log entries 1 and 5). -/
def Obligations.IdleStepsAndEventsNotDue : Prop :=
  ∀ s : State,
    (s.pending = [] → s.untaken = [] → step s = .next s) ∧
    (∀ (c : Instr) (rest : List Instr) (t : State), s.pending = [] → s.untaken = c :: rest →
      exec c { s with untaken := [] } = .next t → step s = .next { t with untaken := t.untaken ++ rest }) ∧
    (s.lu.mode ≠ .draining → exec .drainEnd s = .next s) ∧
    (s.cu.operation = .idle → exec .quiesceEnd s = .next s ∧ exec .restoreHeaderRead s = .next s
      ∧ exec .rebuildLabelReads s = .next s) ∧
    (s.lu.marker ≠ .resetEngine → exec .resetEngineEnd s = .next s) ∧
    (s.hu.secondsDue = 0 → exec .timeAgingEvent s = .next s) ∧
    (s.pm.quietArmed = false → exec .platterQuiet s = .next s) ∧
    (s.ct.passDue = false → exec .routingPass s = .next s) ∧
    (s.pm.state ≠ .ready → exec (.orderDispatch .platter) s = .next s) ∧
    (s.lu.completions = [] → s.lu.notices = [] → exec .responseLinkSend s = .next s)

/-- Every command answers a next state, in every state, and leaves the queue of commands to come alone. -/
def Obligations.EveryCommandAnswers : Prop :=
  ∀ (c : Instr) (s : State), ∃ t, exec c s = .next t ∧ t.pending = s.pending

/-! ## Resets (R101, R186, R200, R206 and the reset tables) -/

/-- POWER_ON_RESET: the values that the reset tables of the chapters give. -/
def Obligations.PowerOnReset : Prop :=
  ∀ s : State, ∃ t, exec .powerOnReset s = .next t
    ∧ t.lu.mode = .unconfigured ∧ t.lu.marker = .none
    ∧ t.lu.frameCount = 0 ∧ t.lu.platterSectors = 0 ∧ t.lu.checkpointBlocks = 0
    ∧ t.lu.completions = [] ∧ t.lu.notices = [] ∧ t.lu.deferred = []
    ∧ (∀ k : Fin 8, t.lu.occurrences[k] = ⟨0, none⟩)
    ∧ (∀ tag : Fin 32, t.ct.slots[tag] = ⟨0, none⟩) ∧ t.ct.arrival = []
    ∧ t.sm.entries = [] ∧ t.sm.frames = [] ∧ t.sm.freeList = [] ∧ t.sm.reclaim = [] ∧ t.sm.dirty = []
    ∧ t.sm.dirtyCount = 0 ∧ t.sm.writeSeq = 0
    ∧ t.hu.epoch = 0 ∧ t.hu.agingCount = 0 ∧ t.hu.timeResidue = 0 ∧ t.hu.candidates = [] ∧ t.hu.heatLimit = false
    ∧ (∀ i : Fin 16, t.rc.ranges[i] = ⟨false, 0, 0, .inside, .pin⟩)
    ∧ (∀ i : Fin 16, t.rc.classes[i] = ⟨16, 4, false, false⟩)
    ∧ (∀ i : Fin 8, t.streams[i] = ⟨false, 0, 0, 0⟩)
    ∧ t.params.admitThreshold = 512 ∧ t.params.hysteresis = 256 ∧ t.params.scanWindow = 4 ∧ t.params.epochSource = .time
    ∧ t.params.epochSpan = 60 ∧ t.params.decayMode = .halve ∧ t.params.streamThreshold = 1024
    ∧ t.params.streamClearMask = 0b1001 ∧ t.params.latencyLimit = 400 ∧ t.params.degradeThreshold = 16
    ∧ t.params.degradeClearMask = 0b11 ∧ t.params.quietTime = 2000 ∧ (∀ k : Fin 8, t.params.noticeSkip[k] = 0)
    ∧ t.params.enabled = 0b111111 ∧ t.params.freeReserve = 0 ∧ t.params.dirtyHigh = 0 ∧ t.params.dirtyLow = 0
    ∧ t.me.queue = [] ∧ t.me.stack = [] ∧ t.me.active = none ∧ t.me.slot0 = none ∧ t.me.slot1 = none
    ∧ t.me.lastNumber = 255 ∧ t.me.urgent = false ∧ t.me.queueDrop = false ∧ t.me.moveSpill = false
    ∧ t.fps = ⟨[], [], [], 0, 0, 255⟩ ∧ t.pps = ⟨[], [], [], 0, 0, 255⟩ ∧ t.held = []
    ∧ t.pm.state = .stopped ∧ t.pm.watch = [] ∧ t.pm.excursion = 0 ∧ t.pm.degraded = false ∧ t.pm.quietTimer = 0
    ∧ t.pm.quietArmed = true ∧ t.pm.spinUpRequested = false ∧ t.pm.foregroundWaiting = false
    ∧ t.pm.platterWork = false ∧ t.pm.movesExist = false ∧ t.pm.urgentMove = false
    ∧ t.cu.inUse = 0 ∧ t.cu.modified = 0b111111 ∧ t.cu.layout = none ∧ t.cu.operation = .idle
    ∧ t.cu.image.layout = none ∧ t.cu.image.sequence = 0 ∧ t.cu.image.frameCount = 0 ∧ t.cu.image.present = 0
    ∧ t.cu.snapshotMarks = 0 ∧ t.cu.rebuildTable = []
    ∧ (∀ i : Fin 32, t.stats[i] = 0)

/-- RESET_ENGINE as it is taken: every slot becomes FREE without a completion, every queued order is taken back, the Checkpoint
Unit's operation ends, the marker becomes RESET_ENGINE, and nothing else changes. -/
def Obligations.ResetEngineTaken : Prop :=
  ∀ (h : TxnHead) (s : State), mayTake .resetEngine h s →
    exec (.resetEngine h) s = .next
      { s with
        lu.marker := .resetEngine
        lu.markerSeq := h.seq
        ct.slots := Vector.ofFn fun t => ⟨s.ct.slots[t].useNo, none⟩
        ct.arrival := []
        ct.passDue := false
        fps.foreground := []
        fps.background := []
        held := []
        pps.foreground := []
        pps.background := []
        cu.operation := .idle }

/-- RESET_ENGINE_END with both ports drained: every block takes its power-on values, and the completion DONE joins those that
wait. The timebase, the records last sent, the records untaken and the model's own fields are kept (log entry 2). -/
def Obligations.ResetEngineEnds : Prop :=
  ∀ s : State, s.lu.marker = .resetEngine → s.fps.outstanding = [] → s.pps.outstanding = [] →
    exec .resetEngineEnd s = .next
      { State.reset with
        lu.completions := s.lu.completions ++ [.transaction 17 s.lu.markerSeq .done .none .none]
        timebase := s.timebase
        responseWire := s.responseWire
        flashWire := s.flashWire
        platterWire := s.platterWire
        untaken := s.untaken
        freeIndex := s.freeIndex
        pending := s.pending }

/-! ## The Command Link (R70 to R75, R87, R99, R204, R207) -/

/-- A record of the Command Link met with the sum of R204 at 64 waits untaken, and so does one behind an untaken record, which keeps
the link order (R187); a Link Reset waits only behind an untaken record. That a discarded record and one of an unknown kind wait
at 64 too, and that what waits is kept in a list, is the model's choice (log entry 10). -/
def Obligations.RecordsWaitUntaken : Prop :=
  (∀ (c : Instr) (s : State), (encodeLink c).isSome = true → c ≠ .linkReset → ¬ linkReady s →
    exec c s = .next { s with untaken := s.untaken ++ [c] }) ∧
  ∀ s : State, s.untaken ≠ [] → exec .linkReset s = .next { s with untaken := s.untaken ++ [.linkReset] }

/-- A descriptor is refused with NOT_ONLINE outside ONLINE and SAVING, and whatever the mode during a Reset Engine. Nothing but
the completion and the refusal's count changes. -/
def Obligations.DescriptorRefusedNotOnline : Prop :=
  ∀ (d : Descriptor) (s : State), linkReady s →
    s.lu.marker = .resetEngine ∨ (s.lu.mode ≠ .online ∧ s.lu.mode ≠ .saving) →
    exec (.commandDescriptor d) s = .next (afterDescriptorRefusal d .notOnline s)

/-- The three tests of a descriptor in their order, and the taking of one that meets none of them. -/
def Obligations.DescriptorTestsInOrder : Prop :=
  ∀ (d : Descriptor) (s : State), linkReady s → s.lu.marker ≠ .resetEngine → s.lu.mode = .online ∨ s.lu.mode = .saving →
    ((commandOf d.tag s).isSome = true →
      exec (.commandDescriptor d) s = .next (afterDescriptorRefusal d .tagInUse s)) ∧
    (commandOf d.tag s = none → d.kind ≠ .flushCache →
      (d.length.toNat = 0 ∨ 8192 < d.length.toNat →
        exec (.commandDescriptor d) s = .next (afterDescriptorRefusal d .lengthInvalid s)) ∧
      (d.length.toNat ≠ 0 → d.length.toNat ≤ 8192 → s.lu.platterSectors < d.start.toNat + d.length.toNat →
        exec (.commandDescriptor d) s = .next (afterDescriptorRefusal d .addressRange s))) ∧
    (commandOf d.tag s = none →
      d.kind = .flushCache ∨ (d.length.toNat ≠ 0 ∧ d.length.toNat ≤ 8192
        ∧ d.start.toNat + d.length.toNat ≤ s.lu.platterSectors) →
      ∃ t, exec (.commandDescriptor d) s = .next t ∧ t.ct.slots[d.tag].useNo = s.ct.slots[d.tag].useNo + 1)

/-- A READ, WRITE or TRIM taken in ONLINE: its slot, its record, its pieces, and what stays as it was. A piece is HELD exactly
where an earlier command's piece of its segment overlaps it and one of the two changes sectors. -/
def Obligations.DescriptorTakenOnline : Prop :=
  ∀ (d : Descriptor) (s : State), linkReady s → arrivalExact s → s.lu.marker ≠ .resetEngine → s.lu.mode = .online →
    commandOf d.tag s = none → d.kind ≠ .flushCache → d.length.toNat ≠ 0 → d.length.toNat ≤ 8192 →
    d.start.toNat + d.length.toNat ≤ s.lu.platterSectors →
    ∃ t c, exec (.commandDescriptor d) s = .next t
      ∧ t.ct.slots[d.tag] = ⟨s.ct.slots[d.tag].useNo + 1, some c⟩
      ∧ c.kind = d.kind ∧ c.cls = d.cls.val ∧ c.start = d.start.toNat ∧ c.length = d.length.toNat ∧ c.buffer = d.buffer
      ∧ c.classCopy = s.rc.classes[d.cls] ∧ c.held = false ∧ c.sequential = (consultFor d s).1
      ∧ c.pieces.map Piece.segment
          = (List.range ((d.start.toNat + d.length.toNat - 1) / 128 - d.start.toNat / 128 + 1)).map
              (d.start.toNat / 128 + ·)
      ∧ (∀ p ∈ c.pieces, p.route = none ∧ p.parts = [] ∧ p.onFlash = false ∧ p.onPlatter = false ∧ p.error = false
          ∧ (∀ i : Nat, i < 128 → (p.sectors.getLsbD i = true ↔
              d.start.toNat ≤ 128 * p.segment + i ∧ 128 * p.segment + i < d.start.toNat + d.length.toNat))
          ∧ (p.state = .waiting .route ∨ p.state = .held false)
          ∧ (p.state = .held false ↔ ∃ e ∈ s.ct.arrival, ∃ y, commandOf e s = some y
              ∧ (d.kind ≠ .read ∨ y.kind = .write ∨ y.kind = .trim)
              ∧ ∃ q ∈ y.pieces, q.segment = p.segment ∧ q.sectors &&& p.sectors ≠ 0 ∧ q.state ≠ .done
                ∧ q.state ≠ .failed))
      ∧ (∀ tag : Fin 32, tag ≠ d.tag → t.ct.slots[tag] = s.ct.slots[tag])
      ∧ t.ct.arrival = s.ct.arrival ++ [d.tag] ∧ t.ct.passDue = true
      ∧ t.stats = (bump .commandsTaken s).stats
      ∧ t.lu = s.lu ∧ t.sm = s.sm ∧ t.rc = s.rc ∧ t.params = s.params ∧ t.me = s.me ∧ t.fps = s.fps ∧ t.held = s.held
      ∧ t.pps = s.pps ∧ t.pm = s.pm ∧ t.hu.candidates = s.hu.candidates

/-- A command taken in SAVING is HELD: it has no pieces, no routing pass is called for, and nothing is answered. -/
def Obligations.DescriptorHeldInSaving : Prop :=
  ∀ (d : Descriptor) (s : State), linkReady s → s.lu.marker ≠ .resetEngine → s.lu.mode = .saving →
    commandOf d.tag s = none →
    d.kind = .flushCache ∨ (d.length.toNat ≠ 0 ∧ d.length.toNat ≤ 8192
      ∧ d.start.toNat + d.length.toNat ≤ s.lu.platterSectors) →
    ∃ t c, exec (.commandDescriptor d) s = .next t
      ∧ t.ct.slots[d.tag] = ⟨s.ct.slots[d.tag].useNo + 1, some c⟩ ∧ c.held = true ∧ c.pieces = [] ∧ c.kind = d.kind
      ∧ (∀ tag : Fin 32, tag ≠ d.tag → t.ct.slots[tag] = s.ct.slots[tag])
      ∧ t.ct.arrival = s.ct.arrival ++ [d.tag] ∧ t.ct.passDue = s.ct.passDue
      ∧ t.lu = s.lu ∧ t.sm = s.sm ∧ t.rc = s.rc ∧ t.params = s.params ∧ t.me = s.me ∧ t.fps = s.fps ∧ t.held = s.held
      ∧ t.pps = s.pps ∧ t.pm = s.pm

/-- A FLUSH_CACHE taken in ONLINE with no WRITE tracked completes at once, GOOD and served-from NONE; behind a WRITE, wherever in
the Arrival List it stands, it stays in its slot, and nothing completes but a FLUSH_CACHE that stands before every WRITE. -/
def Obligations.FlushCacheWaitsForWrites : Prop :=
  ∀ (d : Descriptor) (s : State), linkReady s → arrivalExact s → s.lu.marker ≠ .resetEngine → s.lu.mode = .online →
    commandOf d.tag s = none → d.kind = .flushCache →
    ((∀ e ∈ s.ct.arrival, ∀ y, commandOf e s = some y → y.kind = .read ∨ y.kind = .trim) →
      ∃ t, exec (.commandDescriptor d) s = .next t
        ∧ t.lu.completions = s.lu.completions ++ [.command d.tag .good .none]
        ∧ t.ct.slots[d.tag] = ⟨s.ct.slots[d.tag].useNo + 1, none⟩ ∧ t.ct.arrival = s.ct.arrival
        ∧ (∀ tag : Fin 32, tag ≠ d.tag → t.ct.slots[tag] = s.ct.slots[tag]) ∧ t.sm = s.sm ∧ t.fps = s.fps
        ∧ t.pps = s.pps ∧ t.me = s.me) ∧
    (∀ before e rest y, s.ct.arrival = before ++ e :: rest → commandOf e s = some y → y.kind = .write →
      ∃ t c, exec (.commandDescriptor d) s = .next t
        ∧ t.ct.slots[d.tag] = ⟨s.ct.slots[d.tag].useNo + 1, some c⟩ ∧ c.kind = .flushCache ∧ c.held = false
        ∧ c.pieces = [] ∧ d.tag ∈ t.ct.arrival ∧ t.sm = s.sm ∧ t.fps = s.fps ∧ t.pps = s.pps ∧ t.me = s.me
        ∧ ((∀ x ∈ before, ∀ z, commandOf x s = some z → z.kind ≠ .flushCache) →
            t.lu.completions = s.lu.completions ∧ t.ct.arrival = s.ct.arrival ++ [d.tag]
              ∧ ∀ tag : Fin 32, tag ≠ d.tag → t.ct.slots[tag] = s.ct.slots[tag]))

/-- LINK_RESET frees every slot without a completion and empties the Arrival List and both Foreground queues. Use numbers,
outstanding orders, the Engine Mode, the marker, FrameCount, the Range and Class Tables, the parameters, the epoch and the
completion queue stay. -/
def Obligations.LinkResetFreesSlots : Prop :=
  ∀ s : State, s.untaken = [] →
    ∃ t, exec .linkReset s = .next t
      ∧ (∀ tag : Fin 32, t.ct.slots[tag] = ⟨s.ct.slots[tag].useNo, none⟩) ∧ t.ct.arrival = []
      ∧ t.fps.foreground = [] ∧ t.pps.foreground = []
      ∧ t.fps.outstanding = s.fps.outstanding ∧ t.pps.outstanding = s.pps.outstanding
      ∧ t.lu.completions = s.lu.completions ∧ t.lu.mode = s.lu.mode ∧ t.lu.marker = s.lu.marker
      ∧ t.lu.frameCount = s.lu.frameCount ∧ t.rc = s.rc ∧ t.params = s.params ∧ t.hu.epoch = s.hu.epoch
      ∧ (s.params.streamClearMask.getLsbD 3 = true → ∀ i : Fin 8, t.streams[i].valid = false)

/-- A record of an unknown type is discarded without an answer; a transaction of an unknown kind is refused with UNKNOWN_KIND
before any other test. -/
def Obligations.UnknownRecords : Prop :=
  ∀ s : State, linkReady s →
    (∀ type : Byte, exec (.discardedRecord type) s = .next s) ∧
    ∀ (kind : Byte) (h : TxnHead),
      exec (.unknownKind kind h) s = .next (afterRefusal kind h.seq .unknownKind s)

/-! ## Control transactions: the tests (R187, R188) -/

/-- Tests 2 to 5 of a transaction of a known kind, in their order: a Reset Engine in flight, a long transaction in flight, the
Engine Mode, and reserved fields. A refusal changes nothing but the completion queue and the count of refusals. That a reserved
field is refused before the kind's own BUSY of Configure and Initialize Components is the model's reading (log entry 6). -/
def Obligations.TransactionTestsInOrder : Prop :=
  ∀ (c : Instr) (k : TxnKind) (h : TxnHead) (s : State), txnOf c = some (k, h) → linkReady s →
    let refused : Reason → Prop := fun r => exec c s = .next (afterRefusal (txnCode k) h.seq r s)
    let reset := s.lu.marker = .resetEngine ∧ k ≠ .reportSpindle ∧ k ≠ .readStatus
    let long := s.lu.marker ≠ .none ∧ s.lu.marker ≠ .resetEngine ∧ k ∈ keptBack
    (reset ∨ long → refused .busy) ∧
    (¬ reset → ¬ long → s.lu.mode ∉ allowedModes k → refused .wrongMode) ∧
    (¬ reset → ¬ long → s.lu.mode ∈ allowedModes k → h.reservedClear = false → refused .badArgument)

/-! ## Configure, tables and parameters (R189 to R191) -/

/-- Configure: BUSY in OFFLINE with a frame BOUND or TRIMMING, otherwise BAD_ARGUMENT for a value out of its range; accepted, it
stores the values, builds the Frame Table, derives the parameters and chooses the layout, and changes nothing else. That BUSY
is tested first is the model's choice (log entry 6). -/
def Obligations.Configure : Prop :=
  ∀ (h : TxnHead) (n : BitVec 32) (p : BitVec 64) (b : BitVec 32) (s : State), mayTake .configure h s →
    let held := s.lu.mode = .offline ∧ 0 < framesIn .bound s + framesIn .trimming s
    let inRange := 2 ^ 20 ≤ p.toNat ∧ p.toNat ≤ 2 ^ 40 - 1 ∧ 1 ≤ b.toNat ∧ b.toNat ≤ 1048576
    let f := max 1024 (min 262144 n.toNat)
    let layout : Layout := if (64 + 52 * f + 4095) / 4096 + 22 ≤ b.toNat then .standard else .compact
    (held → exec (.configure h n p b) s = .next (afterRefusal 1 h.seq .busy s)) ∧
    (¬ held → ¬ inRange → exec (.configure h n p b) s = .next (afterRefusal 1 h.seq .badArgument s)) ∧
    (¬ held → inRange → exec (.configure h n p b) s = .next (withCompletion
      (answered 1 h (f != n.toNat) (.configured f layout (3 * f / 4) (f / 2) (min 64 (f / 16))))
      { s with
        lu.frameCount := f
        lu.platterSectors := p.toNat
        lu.checkpointBlocks := b.toNat
        lu.mode := .offline
        sm := ⟨[], List.replicate f ⟨.free, 0⟩, List.range f, [], [], 0, s.sm.writeSeq⟩
        params.dirtyHigh := 3 * f / 4
        params.dirtyLow := f / 2
        params.freeReserve := min 64 (f / 16)
        cu.inUse := (s.cu.inUse &&& 0b111110) ||| 0b001000
        cu.modified := s.cu.modified ||| 0b001001
        cu.layout := some layout
        cu.operation := .idle }))

/-- Load Class and Load Range: when each is refused, what each stores, its completion, and its report to C3 or C2. That a Load Range
answered DONE carries the range end that it stored, too, is the model's reading of 11.2 (log entry 19). -/
def Obligations.LoadClassAndLoadRange : Prop :=
  ∀ (h : TxnHead) (s : State),
    (mayTake .loadClass h s → ∀ (cls readWeight writeWeight : Byte) (streamsCount noPromote : Bool),
      (16 ≤ cls.toNat → exec (.loadClass h cls readWeight writeWeight streamsCount noPromote) s
        = .next (afterRefusal 2 h.seq .badArgument s)) ∧
      (cls.toNat < 16 → exec (.loadClass h cls readWeight writeWeight streamsCount noPromote) s
        = .next (withCompletion (answered 2 h false .none)
          (touch 3 { s with
            rc.classes := s.rc.classes.setIfInBounds cls.toNat
              ⟨readWeight.toNat, writeWeight.toNat, streamsCount, noPromote⟩ })))) ∧
    (mayTake .loadRange h s → ∀ (slot : Byte) (enabled : Bool) (mode action : Byte) (start stop : BitVec 64),
      (16 ≤ slot.toNat ∨ 2 ≤ mode.toNat ∨ 4 ≤ action.toNat ∨ stop.toNat < start.toNat
          ∨ s.lu.platterSectors ≤ start.toNat →
        exec (.loadRange h slot enabled mode action start stop) s
          = .next (afterRefusal 3 h.seq .badArgument s)) ∧
      ∀ (m : MatchMode) (a : RangeAction), slot.toNat < 16 → (mode.toNat, m) ∈ [(0, .inside), (1, .outside)] →
        (action.toNat, a) ∈ [(0, .pin), (1, .bypass), (2, .boost2), (3, .boost4)] → start.toNat ≤ stop.toNat →
        start.toNat < s.lu.platterSectors →
        let last := min stop.toNat (s.lu.platterSectors - 1)
        exec (.loadRange h slot enabled mode action start stop) s
          = .next (withCompletion (answered 3 h (last != stop.toNat) (.rangeEnd last))
            (touch 2 { s with
              rc.ranges := s.rc.ranges.setIfInBounds slot.toNat ⟨enabled, start.toNat, last, m, a⟩ })))

/-- Set Parameter for every id but 5 and 6: the stored value, the completion, and every other parameter as it was. An id that
names no parameter is refused. -/
def Obligations.SetParameterStores : Prop :=
  ∀ (h : TxnHead) (id : Byte) (v : BitVec 32) (s : State), mayTake .setParameter h s →
    (id.toNat = 0 ∨ 24 < id.toNat →
      exec (.setParameter h id v) s = .next (afterRefusal 4 h.seq .badArgument s)) ∧
    ∀ w : Nat, storedNumber s.lu.frameCount id.toNat v.toNat = some w →
      ∃ q : Params, parameterValue id.toNat q = w
        ∧ (∀ j : Nat, 1 ≤ j → j ≤ 24 → j ≠ id.toNat → parameterValue j q = parameterValue j s.params)
        ∧ exec (.setParameter h id v) s
            = .next (withCompletion (answered 4 h (w != v.toNat) (.value w)) (touch 3 { s with params := q }))

/-- Set Parameter of DirtyHigh (id 5) and DirtyLow (id 6): each is clamped against FrameCount and the other, and a DirtyHigh at
or below the present DirtyLow takes DirtyLow down with it. That a clamped DirtyHigh which leaves DirtyLow as it was answers both
values too is the model's reading of 11.2 (log entry 19). -/
def Obligations.SetParameterDirtyBounds : Prop :=
  ∀ (h : TxnHead) (v : BitVec 32) (s : State), mayTake .setParameter h s →
    (let high := max 1 (min s.lu.frameCount v.toNat)
      let low := if high ≤ s.params.dirtyLow then high - 1 else s.params.dirtyLow
      let kept := high = v.toNat ∧ s.params.dirtyLow < high
      ∃ t, exec (.setParameter h 5 v) s = .next t
        ∧ t.params = { s.params with dirtyHigh := high, dirtyLow := low }
        ∧ t.lu.completions = s.lu.completions
            ++ [answered 4 h (!decide kept) (if kept then .value high else .dirtyPair high low)]
        ∧ t.rc = s.rc ∧ t.lu.mode = s.lu.mode ∧ t.lu.marker = s.lu.marker ∧ t.lu.frameCount = s.lu.frameCount
        ∧ t.ct.arrival = s.ct.arrival) ∧
    (let low := min v.toNat (s.params.dirtyHigh - 1)
      ∃ t, exec (.setParameter h 6 v) s = .next t
        ∧ t.params = { s.params with dirtyLow := low }
        ∧ t.lu.completions = s.lu.completions ++ [answered 4 h (low != v.toNat) (.value low)]
        ∧ t.rc = s.rc ∧ t.lu.mode = s.lu.mode ∧ t.lu.marker = s.lu.marker ∧ t.lu.frameCount = s.lu.frameCount
        ∧ t.ct.arrival = s.ct.arrival)

/-! ## Spindle, levels and modes (R143, R149, R150, R192, R194, R195) -/

/-- Report Spindle: a value that names no state is refused, a repeated report only completes, and a change sets the platter
state, calls for a routing pass, interrupts the watch list on leaving READY, ends a stopped period, clears the streams where the
mask selects STOPPED, and clears the excursion count and the Degraded flag where the degrade clear mask selects the change. -/
def Obligations.ReportSpindle : Prop :=
  ∀ (h : TxnHead) (b : Byte) (s : State), mayTake .reportSpindle h s →
    (5 ≤ b.toNat → exec (.reportSpindle h b) s = .next (afterRefusal 5 h.seq .badArgument s)) ∧
    ∀ new : PlatterState,
      (b.toNat, new) ∈ [(0, .stopped), (1, .starting), (2, .ready), (3, .stopping), (4, .parked)] →
      (new = s.pm.state →
        exec (.reportSpindle h b) s = .next (withCompletion (answered 5 h false .none) s)) ∧
      let selected := new = .ready ∧ ((s.pm.state = .starting ∧ s.params.degradeClearMask.getLsbD 0 = true)
        ∨ (s.pm.state = .parked ∧ s.params.degradeClearMask.getLsbD 1 = true))
      (new ≠ s.pm.state → ∃ t, exec (.reportSpindle h b) s = .next t
        ∧ t.pm.state = new ∧ t.ct.passDue = true
        ∧ t.lu.completions = s.lu.completions ++ [answered 5 h false .none]
        ∧ t.pm.watch = (if s.pm.state = .ready then s.pm.watch.map fun w => { w with interrupted := true }
            else s.pm.watch)
        ∧ (new ≠ .stopped → new ≠ .stopping → t.pm.spinUpRequested = false)
        ∧ (new = .stopped → s.params.streamClearMask.getLsbD 0 = true → ∀ i : Fin 8, t.streams[i].valid = false)
        ∧ (selected → t.pm.excursion = 0 ∧ t.pm.degraded = false)
        ∧ (¬ selected → t.pm.excursion = s.pm.excursion ∧ t.pm.degraded = s.pm.degraded)
        ∧ t.lu.mode = s.lu.mode ∧ t.lu.marker = s.lu.marker ∧ t.rc = s.rc ∧ t.params = s.params
        ∧ t.ct.arrival = s.ct.arrival)

/-- Set Port Level: a byte that names no port is refused; otherwise the level is clamped to 4 and stored in the named port's
scheduler alone. That a DONE carries the stored level, too, is the model's reading of 11.2 (log entry 19). -/
def Obligations.SetPortLevel : Prop :=
  ∀ (h : TxnHead) (port level : Byte) (s : State), mayTake .setPortLevel h s →
    (2 ≤ port.toNat → exec (.setPortLevel h port level) s = .next (afterRefusal 6 h.seq .badArgument s)) ∧
    ∀ p : Port, (port.toNat, p) ∈ [(0, .flash), (1, .platter)] →
      let l := min 4 level.toNat
      ∃ t, exec (.setPortLevel h port level) s = .next t
        ∧ (sched p t).level = l
        ∧ t.lu.completions = s.lu.completions ++ [answered 6 h (l != level.toNat) (.level l)]
        ∧ (p = .flash → t.pps.level = s.pps.level) ∧ (p = .platter → t.fps.level = s.fps.level)
        ∧ t.fps.outstanding = s.fps.outstanding ∧ t.pps.outstanding = s.pps.outstanding
        ∧ t.lu.mode = s.lu.mode ∧ t.lu.marker = s.lu.marker ∧ t.rc = s.rc ∧ t.params = s.params
        ∧ t.ct.arrival = s.ct.arrival

/-- Go Online: the Engine Mode becomes ONLINE and the completion is DONE. With nothing for the Migration Engine to do and the
dirty count below DirtyHigh nothing else changes; at DirtyHigh or above, urgent mode is entered. -/
def Obligations.GoOnline : Prop :=
  ∀ (h : TxnHead) (s : State), mayTake .goOnline h s →
    (engineAtRest s → s.sm.dirtyCount < s.params.dirtyHigh →
      exec (.goOnline h) s = .next (withCompletion (answered 10 h false .none) { s with lu.mode := .online })) ∧
    ∃ t, exec (.goOnline h) s = .next t ∧ t.lu.mode = .online
      ∧ t.lu.completions = s.lu.completions ++ [answered 10 h false .none] ∧ t.lu.marker = s.lu.marker
      ∧ (s.me.queue = [] → s.me.stack = [] → s.me.active = none → s.me.urgent = false → s.pm.state ≠ .ready →
          s.params.dirtyHigh ≤ s.sm.dirtyCount → t.me.urgent = true)
      ∧ t.lu.frameCount = s.lu.frameCount ∧ t.rc = s.rc ∧ t.params = s.params ∧ t.ct.arrival = s.ct.arrival

/-- Go Offline: the Engine Mode becomes DRAINING, the marker GO_OFFLINE, urgent mode ends, and every move is stopped: the
PENDING and SUSPENDED ones at once, and the active one too when it has no chunk in flight. The drain ends where its three
conditions hold together: the mode becomes OFFLINE, the marker none, and the completion DONE is handed over. -/
def Obligations.GoOfflineAndDrain : Prop :=
  (∀ (h : TxnHead) (s : State), mayTake .goOffline h s →
    ∃ t, exec (.goOffline h) s = .next t ∧ t.lu.mode = .draining ∧ t.lu.marker = .goOffline ∧ t.lu.markerSeq = h.seq
      ∧ t.lu.completions = s.lu.completions ∧ t.me.urgent = false ∧ t.me.queue = [] ∧ t.me.stack = []
      ∧ (s.me.slot0 = none → s.me.slot1 = none → t.me.active = none)
      ∧ t.lu.frameCount = s.lu.frameCount ∧ t.rc = s.rc ∧ t.params = s.params ∧ t.ct.arrival = s.ct.arrival) ∧
  ∀ s : State, s.lu.mode = .draining → s.lu.marker = .goOffline → s.ct.arrival = [] → commandOrders s = false →
    allMoves s = [] → framesIn .trimming s = 0 → labelUpdatesPending s = false →
    exec .drainEnd s = .next (withCompletion (.transaction 11 s.lu.markerSeq .done .none .none)
      { s with lu.mode := .offline, lu.marker := .none })

/-! ## Moves and enquiries (R105, R106, R124, R196 to R199) -/

/-- Prefetch: segments beyond the platter's last lead to nothing; one absent segment that no BYPASS slot matches gets a PENDING
DIRECTED move under the next free number. The count is clamped to 1..64. -/
def Obligations.Prefetch : Prop :=
  ∀ (h : TxnHead) (start : BitVec 64) (count : Byte) (s : State), mayTake .prefetch h s → engineAtRest s →
    (lastSegment s < start.toNat →
      exec (.prefetch h start count) s
        = .next (withCompletion (answered 12 h (max 1 (min 64 count.toNat) != count.toNat) (.count 0)) s)) ∧
    (count = 1 → start.toNat ≤ lastSegment s → (evaluate start.toNat s).action ≠ .bypass →
      lookup start.toNat s = none →
      ∃ t, exec (.prefetch h start count) s = .next t
        ∧ t.lu.completions = s.lu.completions ++ [answered 12 h false (.count 1)]
        ∧ t.me.queue = [newMove (s.me.lastNumber + 1) .directed start.toNat]
        ∧ t.me.lastNumber = s.me.lastNumber + 1 ∧ t.me.active = none ∧ t.me.stack = []
        ∧ t.pm.movesExist = true ∧ t.sm = s.sm ∧ t.hu = s.hu ∧ t.fps = s.fps ∧ t.pps = s.pps
        ∧ t.ct = s.ct ∧ t.lu.mode = s.lu.mode ∧ t.rc = s.rc ∧ t.params = s.params)

/-- Query Segment reports the entry with its decayed heat or the candidate with its own, the move and the verdict; Read Status
reports the values of R198 and clears the three sticky flags when asked. Neither changes anything else. -/
def Obligations.Enquiries : Prop :=
  ∀ (h : TxnHead) (s : State),
    (mayTake .querySegment h s → ∀ segment : BitVec 64,
      let heat := fun r : HeatRec => decayHeat s.params.decayMode (s.hu.epoch - r.stamp) r.heat
      exec (.querySegment h segment) s = .next (withCompletion
        (answered 13 h false (.segment
          { entry := (s.sm.entries.find? fun e => e.segment == segment.toNat).map fun e => (e, heat e.heat)
            candidate :=
              if (s.sm.entries.find? fun e => e.segment == segment.toNat).isSome then none
              else (candidateOf segment.toNat s).map fun c => (c.heat, heat c.heat)
            move := ((allMoves s).find? fun m => m.segment == segment.toNat).map fun m => (m.number, m.kind, m.state)
            verdict := evaluate segment.toNat s })) s)) ∧
    (mayTake .readStatus h s → ∀ clear : Bool,
      exec (.readStatus h clear) s = .next (withCompletion
        (answered 14 h false (.status
          { mode := s.lu.mode
            marker := s.lu.marker
            platter := s.pm.state
            degraded := s.pm.degraded
            urgent := s.me.urgent
            heatLimit := s.hu.heatLimit
            moveSpill := s.me.moveSpill
            queueDrop := s.me.queueDrop
            free := s.sm.frames.countP fun f => f.state == .free
            bound := s.sm.frames.countP fun f => f.state == .bound
            trimming := s.sm.frames.countP fun f => f.state == .trimming
            retired := s.sm.frames.countP fun f => f.state == .retired
            dirtyCount := s.sm.dirtyCount
            queueLength := s.me.queue.length
            stackDepth := s.me.stack.length
            epoch := s.hu.epoch }))
        { s with
          hu.heatLimit := s.hu.heatLimit && !clear
          me.moveSpill := s.me.moveSpill && !clear
          me.queueDrop := s.me.queueDrop && !clear }))

/-- Cancel Background counts the moves that exist. With no move active, no urgent mode and the platter not READY it leaves no
move behind: the queue and the stack are empty. -/
def Obligations.CancelBackground : Prop :=
  ∀ (h : TxnHead) (s : State), mayTake .cancelBackground h s →
    ∃ t, exec (.cancelBackground h) s = .next t
      ∧ t.lu.completions = s.lu.completions
          ++ [answered 16 h false (.count (s.me.active.toList.length + s.me.stack.length + s.me.queue.length))]
      ∧ t.lu.mode = s.lu.mode ∧ t.lu.marker = s.lu.marker ∧ t.rc = s.rc ∧ t.params = s.params
      ∧ t.ct.arrival = s.ct.arrival
      ∧ (s.me.active = none → s.me.slot0 = none → s.me.slot1 = none → s.me.urgent = false → s.pm.state ≠ .ready →
          s.sm.dirtyCount < s.params.dirtyHigh → t.me.queue = [] ∧ t.me.stack = [] ∧ t.me.active = none)

/-! ## Checkpoints and Rebuild (R164 to R185, R193) -/

/-- Save as it is taken: R is the requested set within Enabled, the quiesce begins and nothing is answered. In OFFLINE nothing
else changes; in ONLINE the Engine Mode becomes SAVING and every WAITING piece waits for the save. -/
def Obligations.SaveTaken : Prop :=
  ∀ (h : TxnHead) (set mode : Byte) (s : State), mayTake .save h s →
    (64 ≤ set.toNat ∨ 2 ≤ mode.toNat → exec (.save h set mode) s = .next (afterRefusal 7 h.seq .badArgument s)) ∧
    (set.toNat < 64 → mode.toNat < 2 →
      let operation := CuOperation.quiescing (BitVec.ofNat 6 set.toNat &&& s.params.enabled) (mode == 0)
      (s.lu.mode = .offline → exec (.save h set mode) s = .next
        { s with lu.marker := .save, lu.markerSeq := h.seq, cu.operation := operation }) ∧
      (s.lu.mode = .online → ∃ t, exec (.save h set mode) s = .next t
        ∧ t.lu.mode = .saving ∧ t.lu.marker = .save ∧ t.lu.markerSeq = h.seq ∧ t.cu.operation = operation
        ∧ t.lu.completions = s.lu.completions ∧ t.ct.arrival = s.ct.arrival ∧ t.rc = s.rc ∧ t.params = s.params
        ∧ ∀ (tag : Fin 32) (c : Command) (p : Piece) (w : WaitReason), commandOf tag t = some c → p ∈ c.pieces →
            p.state = .waiting w → w = .save))

/-- QUIESCE_END where the conditions of R171 hold together, for a save from OFFLINE that is not rewriting. With nothing to write
and the present set unchanged it completes DONE with an empty set; otherwise its first record is snapshotted into the
checkpoint buffer and its WRITE joins the Flash Background queue, which has room. The work view is true, as every step keeps it
(`PortsStayBounded`). -/
def Obligations.QuiesceEnds : Prop :=
  ∀ (s : State) (r : CompSet) (full : Bool), s.cu.operation = .quiescing r full → s.lu.mode = .offline →
    commandOrders s = false → chunkInFlight s = false → framesIn .trimming s = 0 → labelUpdatesPending s = false →
    s.cu.layout = some .standard → s.cu.image.layout = some .standard → s.cu.image.frameCount = s.lu.frameCount →
    s.cu.image.sequence < 4294967295 →
    let w := r &&& s.cu.inUse &&& (if full then 0b111111 else s.cu.modified)
    let present := (s.cu.image.present &&& ~~~r) ||| (r &&& s.cu.inUse)
    (w = 0 → present = s.cu.image.present →
      exec .quiesceEnd s = .next (withCompletion (.transaction 7 s.lu.markerSeq .done .none (.saved 0 false))
        { s with lu.marker := .none, cu.operation := .idle })) ∧
    ∀ c : Fin 6, w.getLsbD c.val = true → (∀ d : Fin 6, d < c → w.getLsbD d.val = false) →
      s.fps.background.length < 16 → workViewTrue s →
      ∃ t p, exec .quiesceEnd s = .next t ∧ t.cu.operation = .saving p
        ∧ p.written = w ∧ p.present = present ∧ p.sequence = s.cu.image.sequence + 1 ∧ p.current = some c
        ∧ p.snapshotted = compBit c ∧ p.waiting = none
        ∧ t.cu.buffer = wholeBlocks (recordBytes c (s.cu.image.sequence + 1) s)
        ∧ t.fps.background = s.fps.background ++ [checkpointOrder (s.cu.requestNo + 1) .write
            (areaStart c s.lu.frameCount) ((recordLength c s + 4095) / 4096)]
        ∧ t.lu.mode = s.lu.mode ∧ t.lu.marker = s.lu.marker ∧ t.lu.completions = s.lu.completions
        ∧ t.sm = s.sm ∧ t.hu = s.hu ∧ t.rc = s.rc ∧ t.streams = s.streams ∧ t.params = s.params
        ∧ t.stats = s.stats ∧ t.cu.image = s.cu.image ∧ t.cu.inUse = s.cu.inUse ∧ t.cu.modified = s.cu.modified

/-- The end of a save: the header's OK makes the header the image and takes the written components out of Modified but for those
changed since their snapshot; a failed record leaves the image and joins the overwritten components to Modified. Outside SAVING
nothing else changes. From SAVING the Engine Mode returns to ONLINE, each HELD command becomes OPEN, no piece waits for the save
any longer and a routing pass is called for; with no command tracked and the Migration Engine at rest nothing else changes. The
model's readings: InUse of a component of R is tested when the header returns OK (log entry 16), and SAVE_FAILED carries
FULL_PERFORMED (log entry 19). -/
def Obligations.SaveEnds : Prop :=
  ∀ (s : State) (p : SaveProgress),
    let closed : TxnStatus → CompSet → Header → CompSet → State := fun status set image modified =>
      withCompletion (.transaction 7 s.lu.markerSeq status .none (.saved set p.fullPerformed))
        { s with
          lu.marker := .none
          cu.operation := .idle
          cu.image := image
          cu.modified := modified }
    let ends : Bool → State → Prop := fun ok u =>
      let t := saveResult p ok s
      (s.lu.mode ≠ .saving → t = u) ∧
      (s.lu.mode = .saving →
        t.lu.mode = .online ∧ t.lu.marker = .none ∧ t.cu.operation = .idle ∧ t.cu.image = u.cu.image
          ∧ (∃ more, t.lu.completions = u.lu.completions ++ more) ∧ t.ct.passDue = true
          ∧ (∀ tag ∈ s.ct.arrival, ∀ c, commandOf tag t = some c →
              c.held = false ∧ ∀ q ∈ c.pieces, q.state ≠ .waiting .save)
          ∧ (engineAtRest s → arrivalExact s → s.ct.arrival = [] →
              t = { u with lu.mode := .online, ct.passDue := true }))
    (p.current = none → ends true (closed .done p.written p.header
      (s.cu.modified &&& ~~~((p.written &&& ~~~s.cu.snapshotMarks) ||| (p.requested &&& ~~~s.cu.inUse))))) ∧
    (∀ c : Fin 6, p.current = some c →
      ends false (closed .saveFailed p.snapshotted s.cu.image (s.cu.modified ||| p.snapshotted))) ∧
    (p.current = none → ends false (closed .saveFailed p.written
      { s.cu.image with layout := none, present := 0, sequence := p.sequence } (s.cu.modified ||| p.written)))

/-- Restore as it is taken; the header READ once no flash order naming a frame is left, one checkpoint READ of block 0 on the
Flash Background queue, which has room (the work view is true, as every step keeps it); and the three refusals of a header in
their order, none of which changes a component, a set or the image. -/
def Obligations.RestoreAndItsHeader : Prop :=
  (∀ (h : TxnHead) (set : Byte) (s : State), mayTake .restore h s →
    (64 ≤ set.toNat → exec (.restore h set) s = .next (afterRefusal 8 h.seq .badArgument s)) ∧
    (set.toNat < 64 → exec (.restore h set) s = .next
      { s with
        lu.mode := .restoring
        lu.marker := .restore
        lu.markerSeq := h.seq
        cu.operation := .restoreDraining (BitVec.ofNat 6 set.toNat &&& s.params.enabled) })) ∧
  (∀ (s : State) (r : CompSet), s.cu.operation = .restoreDraining r →
    (frameOrders s = true → exec .restoreHeaderRead s = .next s) ∧
    (frameOrders s = false → s.fps.background.length < 16 → workViewTrue s →
      ∃ t p, exec .restoreHeaderRead s = .next t ∧ t.cu.operation = .restoring p ∧ p.requested = r
        ∧ p.current = none ∧ p.waiting = none ∧ p.loaded = 0 ∧ p.failed = 0
        ∧ t.fps.background = s.fps.background ++ [checkpointOrder (s.cu.requestNo + 1) .read 0 1]
        ∧ t.lu.mode = s.lu.mode ∧ t.lu.marker = s.lu.marker ∧ t.lu.completions = s.lu.completions
        ∧ t.sm = s.sm ∧ t.hu = s.hu ∧ t.rc = s.rc ∧ t.streams = s.streams ∧ t.params = s.params
        ∧ t.stats = s.stats ∧ t.cu.image = s.cu.image ∧ t.cu.inUse = s.cu.inUse ∧ t.cu.modified = s.cu.modified)) ∧
  ∀ (s : State) (p : RestoreProgress) (ok : Bool),
    let ended : TxnStatus → State := fun status =>
      withCompletion (.transaction 8 s.lu.markerSeq status .none .none)
        { s with lu.marker := .none, lu.mode := .offline, cu.operation := .idle }
    let readable := ok = true ∧ signatureRight s.cu.buffer = true
    (¬ readable → headerResult p ok s = ended .noImage) ∧
    (readable → headerValid s.cu.buffer = false → headerResult p ok s = ended .headerInvalid) ∧
    (readable → headerValid s.cu.buffer = true → p.requested.getLsbD 0 = true →
      (readHeader s.cu.buffer).frameCount ≠ s.lu.frameCount → headerResult p ok s = ended .geometryMismatch)

/-- Rebuild as it is taken, and its label reads once no flash order naming a frame is left: C0 is initialized but for the
write-sequence counter, the rebuild table is emptied, and the label reads of the lowest frames fill the Flash Background
queue. -/
def Obligations.RebuildBegins : Prop :=
  (∀ (h : TxnHead) (s : State), mayTake .rebuild h s →
    exec (.rebuild h) s = .next
      { s with
        lu.mode := .rebuilding
        lu.marker := .rebuild
        lu.markerSeq := h.seq
        cu.operation := .rebuildDraining }) ∧
  ∀ s : State, s.cu.operation = .rebuildDraining →
    (frameOrders s = true → exec .rebuildLabelReads s = .next s) ∧
    (frameOrders s = false → 0 < s.lu.frameCount → s.fps.background.length ≤ 16 →
      ∃ t p, exec .rebuildLabelReads s = .next t ∧ t.cu.operation = .rebuilding p ∧ t.cu.rebuildTable = []
        ∧ p.returned = 0 ∧ p.nextFrame = min (16 - s.fps.background.length) s.lu.frameCount
        ∧ t.fps.background = s.fps.background ++ (List.range p.nextFrame).map labelReadOrder
        ∧ t.sm = ⟨[], List.replicate s.lu.frameCount ⟨.free, 0⟩, List.range s.lu.frameCount, [], [], 0,
            s.sm.writeSeq⟩
        ∧ t.cu.inUse = s.cu.inUse &&& 0b111110 ∧ t.cu.modified = s.cu.modified ||| 0b000001
        ∧ t.lu = s.lu ∧ t.hu = s.hu ∧ t.rc = s.rc ∧ t.streams = s.streams ∧ t.params = s.params
        ∧ t.stats = s.stats)

/-- Rebuild keeps, of the claimants of a segment, the one with the highest write sequence, whatever the order in which the label
reads return; among equal write sequences the claimant on the lowest frame is kept (R181). -/
def Obligations.RebuildKeepsNewestClaim : Prop :=
  ∀ cs : List Claim, (cs.map Claim.frame).Nodup →
    ∀ c : Claim, c ∈ cs.foldl (fun table d => (enterClaim d table).1) [] ↔
      c ∈ cs ∧ ∀ d ∈ cs, d.segment = c.segment → d ≠ c →
        d.label.writeSeq < c.label.writeSeq ∨ (d.label.writeSeq = c.label.writeSeq ∧ c.frame < d.frame)

/-- Initialize Components: each named component takes its initial state, leaves InUse and joins Modified; a set that names more
than C0..C5 is refused, and C0 is refused with BUSY while a flash order naming a frame is left. That BAD_ARGUMENT is tested before
BUSY is the model's reading (log entry 6). -/
def Obligations.InitializeComponents : Prop :=
  ∀ (h : TxnHead) (named : Byte) (s : State), mayTake .initializeComponents h s →
    (64 ≤ named.toNat →
      exec (.initializeComponents h named) s = .next (afterRefusal 15 h.seq .badArgument s)) ∧
    (named.toNat < 64 → named.getLsbD 0 = true → frameOrders s = true →
      exec (.initializeComponents h named) s = .next (afterRefusal 15 h.seq .busy s)) ∧
    (named.toNat < 64 → (named.getLsbD 0 = true → frameOrders s = false) →
      ∃ t, exec (.initializeComponents h named) s = .next t
        ∧ t.lu = (withCompletion (answered 15 h false .none) s).lu
        ∧ (∀ c : Fin 6, named.getLsbD c.val = true →
            t.cu.inUse.getLsbD c.val = false ∧ t.cu.modified.getLsbD c.val = true)
        ∧ (named.getLsbD 0 = true → t.sm = ⟨[], List.replicate s.lu.frameCount ⟨.free, 0⟩,
            List.range s.lu.frameCount, [], [], 0, s.sm.writeSeq⟩)
        ∧ (named.getLsbD 1 = true → t.hu.epoch = 0 ∧ t.hu.agingCount = 0 ∧ t.hu.timeResidue = 0
            ∧ t.hu.candidates = [])
        ∧ (named.getLsbD 1 = false → t.hu.epoch = s.hu.epoch)
        ∧ (∀ i : Fin 16, t.rc.ranges[i] = if named.getLsbD 2 then ⟨false, 0, 0, .inside, .pin⟩ else s.rc.ranges[i])
        ∧ (∀ i : Fin 16, t.rc.classes[i] = if named.getLsbD 3 then ⟨16, 4, false, false⟩ else s.rc.classes[i])
        ∧ (named.getLsbD 3 = true → t.params =
            { Params.defaults with
              dirtyHigh := 3 * s.lu.frameCount / 4
              dirtyLow := s.lu.frameCount / 2
              freeReserve := min 64 (s.lu.frameCount / 16) })
        ∧ (named.getLsbD 3 = false → t.params = s.params)
        ∧ (named.getLsbD 4 = true → ∀ i : Fin 8, t.streams[i] = ⟨false, 0, 0, 0⟩)
        ∧ (named.getLsbD 4 = false → t.streams = s.streams)
        ∧ (∀ i : Fin 32, t.stats[i] = if named.getLsbD 5 then 0 else s.stats[i])
        ∧ t.cu.image = s.cu.image ∧ t.me = s.me ∧ t.fps = s.fps ∧ t.pps = s.pps ∧ t.held = s.held ∧ t.pm = s.pm
        ∧ t.ct = s.ct)

/-! ## Time and notices (1.5, R31, R32, R158, R159, R202, R203, R204) -/

/-- MILLISECOND_TICK: the timebase rises by 1 modulo 2^32, the time residue where seconds are counted, and the quiet timer where
it runs; nothing else changes. A second that ends becomes due (log entry 5). PLATTER_QUIET with the timer at QuietTime and the
marker ARMED: the marker becomes SPENT and one occurrence with the argument READY is taken. -/
def Obligations.MillisecondTickAndQuiet : Prop :=
  (∀ s : State,
    let counts := (s.lu.mode = .online ∨ s.lu.mode = .saving ∨ s.lu.mode = .draining)
      ∧ s.params.epochSource ≠ .commands
    let second := counts ∧ 1000 ≤ s.hu.timeResidue + 1
    let quiet := s.pm.state = .ready ∧ s.pm.platterWork = false ∧ s.pm.movesExist = false
      ∧ s.lu.marker ≠ .resetEngine
    exec .millisecondTick s = .next
      { s with
        timebase := s.timebase + 1
        hu.timeResidue := if second then 0 else if counts then s.hu.timeResidue + 1 else s.hu.timeResidue
        hu.secondsDue := if second then s.hu.secondsDue + 1 else s.hu.secondsDue
        pm.quietTimer := if quiet then min s.params.quietTime (s.pm.quietTimer + 1) else s.pm.quietTimer
        pm.quietReached := if quiet then decide (s.params.quietTime ≤ s.pm.quietTimer + 1) else s.pm.quietReached }) ∧
  ∀ s : State, s.pm.quietReached = true → s.pm.state = .ready → s.pm.platterWork = false → s.pm.movesExist = false →
    s.pm.quietArmed = true → s.lu.marker ≠ .resetEngine →
    exec .platterQuiet s = .next (occur .platterQuiet 2 { s with pm.quietArmed := false })

/-- TIME_AGING_EVENT: the aging-event counter rises by 1; where it reaches EpochSpan it returns to 0 and the epoch rises by 1,
which is a change of C1 and invalidates the streams where the mask selects it. -/
def Obligations.TimeAgingEvent : Prop :=
  ∀ (s : State) (n : Nat), s.hu.secondsDue = n + 1 →
    s.lu.mode = .online ∨ s.lu.mode = .saving ∨ s.lu.mode = .draining →
    (s.hu.agingCount + 1 < s.params.epochSpan →
      exec .timeAgingEvent s = .next { s with hu.secondsDue := n, hu.agingCount := s.hu.agingCount + 1 }) ∧
    (s.params.epochSpan ≤ s.hu.agingCount + 1 → s.hu.epoch < 4294967295 →
      ∃ t, exec .timeAgingEvent s = .next t
        ∧ t.hu = { s.hu with secondsDue := n, agingCount := 0, epoch := s.hu.epoch + 1 }
        ∧ t.cu.inUse.getLsbD 1 = true ∧ t.cu.modified.getLsbD 1 = true
        ∧ (s.params.streamClearMask.getLsbD 1 = true → ∀ i : Fin 8, t.streams[i].valid = false)
        ∧ (s.params.streamClearMask.getLsbD 1 = false → t.streams = s.streams)
        ∧ t.lu = s.lu ∧ t.sm = s.sm ∧ t.ct = s.ct ∧ t.me = s.me ∧ t.fps = s.fps ∧ t.pps = s.pps ∧ t.pm = s.pm
        ∧ t.rc = s.rc ∧ t.params = s.params ∧ t.stats = s.stats)

/-- What an occurrence does: it is counted with its time and argument; at N + 1 it posts a notice, which joins the queue, merges
into the newest of its kind in a full queue, or is deferred with its count kept. -/
def Obligations.OccurrencePosts : Prop :=
  ∀ (k : NoticeKind) (a : Nat) (s : State), s.lu.marker ≠ .resetEngine →
    let count := min 65535 (s.lu.occurrences[k.index].count + 1)
    let taken : State := { s with lu.occurrences := s.lu.occurrences.set k.index ⟨count, some (s.timebase, a)⟩ }
    let cleared := s.lu.occurrences.set k.index ⟨0, some (s.timebase, a)⟩
    (count ≤ s.params.noticeSkip[k.index] → occur k a s = taken) ∧
    (s.params.noticeSkip[k.index] < count →
      (s.lu.notices.length < 8 →
        occur k a s = { s with
          lu.occurrences := cleared
          lu.notices := s.lu.notices ++ [⟨k, count, s.timebase, a⟩] }) ∧
      (8 ≤ s.lu.notices.length → (∀ n ∈ s.lu.notices, n.kind ≠ k) → k ∉ s.lu.deferred →
        occur k a s = bump .postsDeferred { taken with lu.deferred := s.lu.deferred ++ [k] }) ∧
      (8 ≤ s.lu.notices.length → (∀ n ∈ s.lu.notices, n.kind ≠ k) → k ∈ s.lu.deferred → occur k a s = taken) ∧
      ∀ (older newer : List Notice) (n : Notice), s.lu.notices = older ++ n :: newer → 8 ≤ s.lu.notices.length →
        n.kind = k → (∀ m ∈ newer, m.kind ≠ k) →
        occur k a s = bump .noticesMerged { s with
          lu.occurrences := cleared
          lu.notices := older ++ ⟨k, min 65535 (n.occurrences + count), s.timebase, a⟩ :: newer })

/-- RESPONSE_LINK_SEND: the head completion goes first; otherwise the head notice goes, is counted, and the place it frees takes
the kind at the head of the deferred list. -/
def Obligations.ResponseLinkSend : Prop :=
  ∀ s : State,
    (∀ c rest, s.lu.completions = c :: rest →
      exec .responseLinkSend s = .next { s with
        lu.completions := rest
        responseWire := completionBytes s.freeIndex c
        freeIndex := s.freeIndex + freeValuesOf c }) ∧
    (∀ n rest, s.lu.completions = [] → s.lu.notices = n :: rest → s.lu.deferred = [] →
      exec .responseLinkSend s
        = .next (bump (.noticesSent n.kind) { s with lu.notices := rest, responseWire := noticeBytes n })) ∧
    ∀ n rest k kinds, s.lu.completions = [] → s.lu.notices = n :: rest → s.lu.notices.length ≤ 8 →
      s.lu.deferred = k :: kinds →
      ∃ t, exec .responseLinkSend s = .next t
        ∧ t.lu.notices = rest ++ [⟨k, s.lu.occurrences[k.index].count,
            ((s.lu.occurrences[k.index].latest).map Prod.fst).getD 0,
            ((s.lu.occurrences[k.index].latest).map Prod.snd).getD 0⟩]
        ∧ t.lu.deferred = kinds ∧ t.lu.occurrences[k.index].count = 0 ∧ t.responseWire = noticeBytes n
        ∧ t.lu.completions = [] ∧ t.lu.mode = s.lu.mode ∧ t.lu.marker = s.lu.marker
        ∧ t.stats = (bump (.noticesSent n.kind) s).stats

/-- What a counter's rise and a report of change do: a counter below the top rises by 1 and C5 joins InUse and Modified; at the
top nothing changes. A reported component joins both sets and the other components stay as they were. -/
def Obligations.ChangeReports : Prop :=
  (∀ (k : Counter) (s : State),
    (s.stats[counterIndex k] = 4294967295 → bump k s = s) ∧
    (s.stats[counterIndex k] < 4294967295 →
      ∃ t, bump k s = t ∧ t.stats[counterIndex k] = s.stats[counterIndex k] + 1
        ∧ (∀ i : Fin 32, i ≠ counterIndex k → t.stats[i] = s.stats[i])
        ∧ t.cu.inUse = s.cu.inUse ||| 0b100000 ∧ t.cu.modified = s.cu.modified ||| 0b100000
        ∧ t.lu = s.lu ∧ t.ct = s.ct ∧ t.sm = s.sm ∧ t.hu = s.hu ∧ t.me = s.me)) ∧
  ∀ (c d : Fin 6) (s : State),
    ((touch c s).cu.inUse.getLsbD d.val = (s.cu.inUse.getLsbD d.val || decide (d = c))) ∧
    ((touch c s).cu.modified.getLsbD d.val = (s.cu.modified.getLsbD d.val || decide (d = c))) ∧
    ((reportInitialized c s).cu.inUse.getLsbD d.val = (s.cu.inUse.getLsbD d.val && decide (d ≠ c))) ∧
    ((reportInitialized c s).cu.modified.getLsbD d.val = (s.cu.modified.getLsbD d.val || decide (d = c))) ∧
    ((reportLoaded c s).cu.inUse.getLsbD d.val = (s.cu.inUse.getLsbD d.val || decide (d = c))) ∧
    ((reportLoaded c s).cu.modified.getLsbD d.val = (s.cu.modified.getLsbD d.val && decide (d ≠ c)))

/-! ## Routing and the media ports (R81 to R85, R90 to R95, R138 to R144) -/

/-- ROUTING_PASS over one WAITING piece. With the Migration Engine at rest, a READ of an absent segment goes to the platter, a READ
within the valid set of a CLEAN entry goes to flash and touches the Reclaim List, one that the valid set holds in part is split
over both ports, a TRIM of an absent segment goes to the platter, and a WRITE of an absent segment with the platter not READY is
absorbed into a NEW entry on the head of the Free Frame List, or goes to the platter where there is neither a frame nor a victim.
A READ of an absent segment that is not BYPASS, not sequential and not of a NO_PROMOTE class asks for admission: a DIRECTED move
under a PIN range; nothing below the threshold; a PROMOTE move where the Free Frame List is longer than FreeReserve, or where the
victim of the scan is colder by Hysteresis and is evicted; and a counted refusal otherwise. There, and for the TRIM, no queued
Foreground order is of the waiting piece, which has none before it is routed. With the platter READY and not Degraded, a WRITE of
an absent segment that is not pinned goes to the platter. A WRITE or TRIM of a segment whose active promotion has a chunk order
queued or outstanding becomes HELD, and the move's yield mark is set. -/
def Obligations.RoutingPass : Prop :=
  ∀ (s : State) (tag : Fin 32) (c : Command) (p : Piece), s.ct.passDue = true → s.lu.mode ≠ .saving →
    s.ct.arrival = [tag] → commandOf tag s = some c → c.pieces = [p] → p.state = .waiting .route →
    let issued : Route → Port → Operation → Command := fun route port op =>
      { c with pieces := [{ p with
          state := .issued
          route := some route
          parts := [⟨port, op, p.sectors, .placed⟩] }] }
    let order : Port → Operation → Address → Order := fun port op address =>
      ⟨port, .foreground, .piece tag s.ct.slots[tag].useNo p.segment 0, op, address, some p.sectors, none,
        .host c.buffer, none⟩
    (engineAtRest s → (c.kind = .read → lookup p.segment s = none → s.pps.foreground.length < 64 → c.classCopy.noPromote = true →
      ∃ t, exec .routingPass s = .next t ∧ commandOf tag t = some (issued .platterRead .platter .read)
        ∧ t.pps.foreground = s.pps.foreground ++ [order .platter .read (.platter p.segment)]
        ∧ t.hu = (heatUpdate p.segment c (evaluate p.segment s).boost s).2.hu
        ∧ t.ct.passDue = false ∧ t.ct.arrival = s.ct.arrival ∧ t.fps = s.fps ∧ t.sm = s.sm ∧ t.me = s.me
        ∧ t.lu.completions = s.lu.completions ∧ t.lu.mode = s.lu.mode) ∧
    (∀ e : Entry, c.kind = .read → lookup p.segment s = some e → e.state = .clean →
      p.sectors &&& ~~~validSet e = 0 → s.fps.foreground.length < 64 →
      ∃ t, exec .routingPass s = .next t ∧ commandOf tag t = some (issued .flashRead .flash .read)
        ∧ t.fps.foreground = s.fps.foreground ++ [order .flash .read (.frame e.frame)]
        ∧ t.sm.reclaim = (s.sm.reclaim.filter fun x => x != p.segment) ++ [p.segment]
        ∧ lookup p.segment t
            = some { e with heat := updatedRec e.heat (contribution c (evaluate p.segment s).boost) s }
        ∧ t.sm.frames = s.sm.frames ∧ t.sm.freeList = s.sm.freeList ∧ t.sm.dirty = s.sm.dirty
        ∧ t.ct.passDue = false ∧ t.ct.arrival = s.ct.arrival ∧ t.pps = s.pps ∧ t.me = s.me
        ∧ t.hu.candidates = s.hu.candidates ∧ t.lu.completions = s.lu.completions ∧ t.lu.mode = s.lu.mode) ∧
    (∀ (f : Nat) (rest : List Nat), c.kind = .write → lookup p.segment s = none → s.fps.foreground.length < 64 →
      s.sm.freeList = f :: rest →
      ∃ t e, exec .routingPass s = .next t ∧ commandOf tag t = some (issued .absorb .flash .write)
        ∧ t.fps.foreground = s.fps.foreground ++ [order .flash .write (.frame f)]
        ∧ lookup p.segment t = some e ∧ e.frame = f ∧ e.state = .fresh ∧ validSet e = 0 ∧ e.generation = 0
        ∧ e.absorbs = 1 ∧ e.flushFailures = 0 ∧ e.marker = none
        ∧ t.sm.freeList = rest ∧ t.sm.frames = s.sm.frames.modify f (fun x => { x with state := .bound })
        ∧ t.sm.reclaim = s.sm.reclaim ∧ t.sm.dirty = s.sm.dirty ∧ t.sm.dirtyCount = s.sm.dirtyCount
        ∧ t.ct.passDue = false ∧ t.ct.arrival = s.ct.arrival ∧ t.pps = s.pps ∧ t.me = s.me
        ∧ t.lu.completions = s.lu.completions ∧ t.lu.mode = s.lu.mode) ∧
    (∀ e : Entry, c.kind = .read → lookup p.segment s = some e → e.state = .clean → p.sectors &&& validSet e ≠ 0 →
      p.sectors &&& ~~~validSet e ≠ 0 → s.fps.foreground.length < 64 → s.pps.foreground.length < 64 →
      let part : Nat → Port → Address → SectorSet → Order := fun i port address v =>
        { order port .read address with origin := .piece tag s.ct.slots[tag].useNo p.segment i, sectors := some v }
      let valid := p.sectors &&& validSet e
      let other := p.sectors &&& ~~~validSet e
      ∃ t, exec .routingPass s = .next t
        ∧ commandOf tag t = some { c with pieces := [{ p with
            state := .issued
            route := some .splitRead
            parts := [⟨.flash, .read, valid, .placed⟩, ⟨.platter, .read, other, .placed⟩] }] }
        ∧ t.fps.foreground = s.fps.foreground ++ [part 0 .flash (.frame e.frame) valid]
        ∧ t.pps.foreground = s.pps.foreground ++ [part 1 .platter (.platter p.segment) other]
        ∧ t.sm.reclaim = (s.sm.reclaim.filter fun x => x != p.segment) ++ [p.segment]
        ∧ t.me = s.me ∧ t.lu.completions = s.lu.completions ∧ t.lu.mode = s.lu.mode) ∧
    (c.kind = .trim → lookup p.segment s = none → s.pps.foreground.length < 64 →
      (∀ o ∈ s.pps.foreground, ∀ g i, o.origin ≠ .piece tag s.ct.slots[tag].useNo g i) →
      ∃ t, exec .routingPass s = .next t ∧ commandOf tag t = some (issued .platterTrim .platter .trim)
        ∧ t.pps.foreground = s.pps.foreground ++ [{ order .platter .trim (.platter p.segment) with buffer := .none }]
        ∧ t.ct.passDue = false ∧ t.ct.arrival = s.ct.arrival ∧ t.fps = s.fps ∧ t.sm = s.sm ∧ t.hu = s.hu ∧ t.me = s.me
        ∧ t.lu.completions = s.lu.completions ∧ t.lu.mode = s.lu.mode) ∧
    (c.kind = .write → lookup p.segment s = none → s.fps.foreground.length < 64 → s.pps.foreground.length < 64 →
      s.sm.freeList = [] → victimScan s = none → c.classCopy.noPromote = true →
      ∃ t, exec .routingPass s = .next t ∧ commandOf tag t = some (issued .platterWrite .platter .write)
        ∧ t.pps.foreground = s.pps.foreground ++ [order .platter .write (.platter p.segment)]
        ∧ t.hu = (heatUpdate p.segment c (evaluate p.segment s).boost s).2.hu
        ∧ t.ct.passDue = false ∧ t.ct.arrival = s.ct.arrival ∧ t.fps = s.fps ∧ t.sm = s.sm ∧ t.me = s.me
        ∧ t.lu.completions = s.lu.completions ∧ t.lu.mode = s.lu.mode) ∧
    (c.kind = .read → lookup p.segment s = none → s.pps.foreground.length < 64 → c.classCopy.noPromote = false →
      c.sequential = false → s.lu.mode = .online → s.lu.marker ≠ .resetEngine →
      (evaluate p.segment s).action ≠ .bypass → arrivalExact s →
      (∀ o ∈ s.fps.foreground, ∀ g i, o.origin ≠ .piece tag s.ct.slots[tag].useNo g i) →
      let heat := (heatUpdate p.segment c (evaluate p.segment s).boost s).1
      let threshold := if s.pm.degraded then max 1 (s.params.admitThreshold / 2) else s.params.admitThreshold
      let pin := (evaluate p.segment s).action = .pin
      let room := s.params.freeReserve < s.sm.freeList.length
      let asked : MoveKind → State → Prop := fun k t =>
        t.me = { s.me with
          queue := [newMove (s.me.lastNumber + 1) k p.segment]
          lastNumber := s.me.lastNumber + 1 }
      let refused : State → Prop := fun t => t.me = s.me ∧ t.sm = s.sm
        ∧ t.stats[counterIndex .admissionRefusals] = (bump .admissionRefusals s).stats[counterIndex .admissionRefusals]
      ∃ t, exec .routingPass s = .next t
        ∧ t.pps.foreground = s.pps.foreground ++ [order .platter .read (.platter p.segment)]
        ∧ (pin → asked .directed t ∧ t.sm = s.sm)
        ∧ (¬ pin → heat < threshold → t.me = s.me ∧ t.sm = s.sm)
        ∧ (¬ pin → threshold ≤ heat → room → asked .promote t ∧ t.sm = s.sm)
        ∧ (¬ pin → threshold ≤ heat → ¬ room → victimScan s = none → refused t)
        ∧ ∀ victim victimHeat, ¬ pin → threshold ≤ heat → ¬ room → victimScan s = some (victim, victimHeat) →
            (heat < min 65535 (victimHeat + s.params.hysteresis) → refused t)
            ∧ ∀ e, min 65535 (victimHeat + s.params.hysteresis) ≤ heat → lookup victim s = some e → e.state = .clean →
                asked .promote t ∧ lookup victim t = none ∧ t.sm.reclaim = (s.sm.reclaim.filter fun x => x != victim)
                  ∧ (e.frame < s.sm.frames.length → frameState e.frame t = some .trimming)
                  ∧ t.stats[counterIndex .evictions] = (bump .evictions s).stats[counterIndex .evictions])) ∧
    (c.kind = .write → lookup p.segment s = none → s.pps.foreground.length < 64 → c.classCopy.noPromote = true →
      s.pm.state = .ready → s.pm.degraded = false → (evaluate p.segment s).action ≠ .pin → s.me.active = none →
      s.me.queue = [] → s.me.stack = [] → s.me.urgent = false → s.sm.dirty = [] → noYieldHeld s →
      ∃ t, exec .routingPass s = .next t ∧ commandOf tag t = some (issued .platterWrite .platter .write)
        ∧ t.pps.foreground = s.pps.foreground ++ [order .platter .write (.platter p.segment)]
        ∧ t.hu = (heatUpdate p.segment c (evaluate p.segment s).boost s).2.hu
        ∧ t.ct.passDue = false ∧ t.fps = s.fps ∧ t.sm = s.sm ∧ t.me = s.me ∧ t.lu.completions = s.lu.completions
        ∧ t.lu.mode = s.lu.mode) ∧
    ∀ (m : Move) (e : Entry) (k : ChunkSlot), c.kind = .write ∨ c.kind = .trim → lookup p.segment s = some e →
      e.state = .inbound → s.me.active = some m → m.kind = .promote ∨ m.kind = .directed → m.segment = p.segment →
      m.state = .active → s.me.slot0 = some k → k.stage ≠ .writeWaiting → s.me.slot1 = none → s.me.queue = [] →
      s.me.urgent = false → s.sm.dirty = [] →
      ∃ t, exec .routingPass s = .next t
        ∧ commandOf tag t = some { c with pieces := [{ p with state := .held true }] }
        ∧ t.me = { s.me with active := some { m with yielding := true } }
        ∧ t.sm = s.sm ∧ t.hu = s.hu ∧ t.fps = s.fps ∧ t.pps = s.pps ∧ t.lu.completions = s.lu.completions
        ∧ t.lu.mode = s.lu.mode

/-- ORDER_DISPATCH of a Foreground head with no eligible Background order: the order leaves the queue and joins the outstanding
set under an id that no outstanding order holds, with the label and the time of the dispatch; a flash frame's in-flight count
rises, and a platter dispatch joins the watch list. -/
def Obligations.DispatchForegroundHead : Prop :=
  ∀ (p : Port) (s : State) (o : Order) (rest : List Order), s.lu.marker ≠ .resetEngine →
    (p = .platter → s.pm.state = .ready) → (sched p s).outstanding.length < (if p = .flash then 8 else 4) →
    (sched p s).foreground = o :: rest → oldestEligible p s = none →
    ∃ t d, exec (.orderDispatch p) s = .next t
      ∧ (sched p t).outstanding = (sched p s).outstanding ++ [d] ∧ d.order = o ∧ d.time = s.timebase
      ∧ d.label = orderLabel o s ∧ (∀ x ∈ (sched p s).outstanding, x.id ≠ d.id) ∧ (sched p t).lastId = d.id
      ∧ (sched p t).foreground = rest ∧ (sched p t).background = (sched p s).background
      ∧ (sched p t).starvation = 0 ∧ (sched p t).level = (sched p s).level
      ∧ t.ct.passDue = true ∧ t.ct.slots = s.ct.slots ∧ t.ct.arrival = s.ct.arrival
      ∧ (p = .flash → t.flashWire = orderBytes d ∧ t.pps = s.pps ∧ t.pm = s.pm
          ∧ ∀ f, o.address = .frame f → f < s.sm.frames.length → inFlight f t = inFlight f s + 1)
      ∧ (p = .platter → t.platterWire = orderBytes d ∧ t.fps = s.fps
          ∧ t.pm.watch = s.pm.watch ++ [⟨d.id, false⟩] ∧ t.pm.quietArmed = true)
      ∧ t.sm.writeSeq = (if (orderLabel o s).isSome then s.sm.writeSeq + 1 else s.sm.writeSeq)
      ∧ t.sm.entries = s.sm.entries ∧ t.me = s.me ∧ t.lu.completions = s.lu.completions

/-- The arbiter of a port: a Background order's eligibility by its origin, and the choice between the Foreground head and the
oldest eligible Background order of the Platter Port by the starvation count. -/
def Obligations.DispatchArbitration : Prop :=
  (∀ (p : Port) (o : Order) (s : State), orderEligible p o s = true ↔
    (∀ n c, o.origin = .chunk n c → ∃ l, o.level = some l ∧ (sched p s).level < l)
      ∧ ∀ f, o.origin = .trim f → inFlight f s = 0) ∧
  (∀ (p : Port) (s : State) (i : Nat), oldestEligible p s = some i ↔
    (∃ o, (sched p s).background[i]? = some o ∧ orderEligible p o s = true)
      ∧ ∀ (j : Nat) (o : Order), j < i → (sched p s).background[j]? = some o → orderEligible p o s = false) ∧
  ∀ (s : State) (o b : Order) (rest : List Order) (i n c : Nat) (number : Byte), s.lu.marker ≠ .resetEngine →
    s.pm.state = .ready → s.pps.outstanding.length < 4 → s.pps.foreground = o :: rest →
    oldestEligible .platter s = some i → s.pps.background[i]? = some b → b.origin = .chunk number c →
    s.pps.starvation = n →
    ∃ t d, exec (.orderDispatch .platter) s = .next t ∧ t.pps.outstanding = s.pps.outstanding ++ [d]
      ∧ t.lu.completions = s.lu.completions
      ∧ (n = 16 → d.order = b ∧ t.pps.starvation = 0)
      ∧ (n ≠ 16 → d.order = o ∧ t.pps.starvation = n + 1 ∧ t.pps.foreground = rest
          ∧ t.pps.background = s.pps.background)

/-- ORDER_RESULT: a result that names no outstanding order changes nothing; during a Reset Engine a result only ends its order;
every other platter result leaves the watch list and, unless it was interrupted, enters the latency window, which starts or ends
Degraded with one occurrence and a routing pass called for; the result of the one platter order of a one-piece READ ends the
command, GOOD and served from the platter, or MEDIA_ERROR. -/
def Obligations.OrderResults : Prop :=
  ∀ (s : State) (r : OrderResult),
    (∀ p : Port, (∀ d ∈ (sched p s).outstanding, d.id ≠ r.id) → exec (.orderResult p r) s = .next s) ∧
    (∀ p : Port, s.lu.marker = .resetEngine → exec (.orderResult p r) s = .next (setSched p
      { sched p s with outstanding := (sched p s).outstanding.filter fun d => d.id != r.id } s)) ∧
    (∀ d : Dispatched, s.lu.marker ≠ .resetEngine → (s.pps.outstanding.find? fun x => x.id == r.id) = some d →
      let interrupted := (s.pm.watch.find? fun w => w.id == r.id).any fun w => w.interrupted
      let late := s.params.latencyLimit < (s.timebase - d.time).toNat
      let count := if interrupted then s.pm.excursion
        else if late then min 63 (s.pm.excursion + 4) else s.pm.excursion - 1
      let starts := interrupted = false ∧ s.pm.degraded = false ∧ s.params.degradeThreshold ≤ count
      let ends := interrupted = false ∧ s.pm.degraded = true ∧ count = 0
      let counted := fun (k : NoticeKind) (a : Nat) (t : State) =>
        t.lu.occurrences[k.index] = (occur k a s).lu.occurrences[k.index]
      ∃ t, exec (.orderResult .platter r) s = .next t
        ∧ t.pm.watch = (s.pm.watch.eraseP fun w => w.id == r.id) ∧ t.pm.excursion = count
        ∧ (starts → t.pm.degraded = true ∧ t.ct.passDue = true ∧ counted .platterDegraded count t
            ∧ ((∀ n, d.order.origin ≠ .checkpoint n) → t.stats[counterIndex .degradedEntries]
                = (bump .degradedEntries s).stats[counterIndex .degradedEntries]))
        ∧ (ends → t.pm.degraded = false ∧ t.ct.passDue = true
            ∧ counted .platterRecovered (platterCode s.pm.state) t)
        ∧ (¬ starts → ¬ ends → t.pm.degraded = s.pm.degraded ∧ ∀ k : NoticeKind,
            k = .platterDegraded ∨ k = .platterRecovered →
              t.lu.occurrences[k.index] = s.lu.occurrences[k.index])) ∧
    ∀ (d : Dispatched) (tag : Fin 32) (useNo : BitVec 16) (c : Command) (p : Piece) (q : OrderPart),
      s.lu.marker ≠ .resetEngine → (s.pps.outstanding.find? fun x => x.id == r.id) = some d →
      d.order.origin = .piece tag useNo p.segment 0 → d.order.address = .platter p.segment →
      s.ct.slots[tag] = ⟨useNo, some c⟩ → c.kind = .read → c.held = false → c.pieces = [p] → p.state = .issued →
      p.parts = [q] → p.onFlash = false → p.onPlatter = false → p.error = false →
      (∀ e ∈ s.ct.arrival, ∀ y, commandOf e s = some y → y.kind ≠ .flushCache) →
      ∃ t, exec (.orderResult .platter r) s = .next t
        ∧ t.lu.completions = s.lu.completions ++ [if r.outcome = 0 then .command tag .good .platter
            else .command tag .mediaError .none]
        ∧ t.ct.slots[tag] = ⟨useNo, none⟩ ∧ t.ct.arrival = s.ct.arrival.filter (fun x => x != tag)
        ∧ t.pps.outstanding = s.pps.outstanding.filter (fun x => x.id != r.id)
        ∧ t.fps.outstanding = s.fps.outstanding ∧ t.rc = s.rc ∧ t.params = s.params
        ∧ t.lu.mode = s.lu.mode ∧ t.lu.marker = s.lu.marker

/-! ## The Segment Map (R7, R16, R26) -/

/-- An absorb's OK on its entry, and the finish of a flush: what becomes of the entry, the lists and the dirty count. -/
def Obligations.AbsorbsAndFlushes : Prop :=
  (∀ (g f : Nat) (v : SectorSet) (s : State) (e : Entry), lookup g s = some e → e.frame = f →
    let written : Entry :=
      { e with
        validity := validityOf (validSet e ||| v)
        generation := e.generation + 1
        absorbs := e.absorbs - 1
        flushFailures := 0 }
    (e.state = .fresh ∨ e.state = .clean →
      lookup g (absorbOk g f v s) = some { written with state := .dirty }
        ∧ (absorbOk g f v s).sm.dirty = (s.sm.dirty.filter fun x => x != g) ++ [g]
        ∧ (absorbOk g f v s).sm.reclaim = s.sm.reclaim.filter (fun x => x != g)
        ∧ (absorbOk g f v s).sm.dirtyCount = s.sm.dirtyCount + 1) ∧
    (e.state = .dirty ∨ e.state = .flushing →
      lookup g (absorbOk g f v s) = some written ∧ (absorbOk g f v s).sm.dirty = s.sm.dirty
        ∧ (absorbOk g f v s).sm.reclaim = s.sm.reclaim ∧ (absorbOk g f v s).sm.dirtyCount = s.sm.dirtyCount) ∧
    (∀ k, k ≠ g → lookup k (absorbOk g f v s) = lookup k s) ∧ (absorbOk g f v s).sm.frames = s.sm.frames
      ∧ (absorbOk g f v s).sm.freeList = s.sm.freeList) ∧
  ∀ (g : Nat) (n : Byte) (captured : Option Byte) (overtaken : Bool) (s : State) (e : Entry),
    lookup g s = some e → e.marker = some n → e.state = .flushing →
    let t := (flushFinish g n captured overtaken s).2
    (captured = some e.generation → overtaken = false →
      (flushFinish g n captured overtaken s).1 = some true
        ∧ lookup g t = some { e with state := .clean, marker := none, flushFailures := 0 }
        ∧ t.sm.reclaim = (s.sm.reclaim.filter fun x => x != g) ++ [g] ∧ t.sm.dirty = s.sm.dirty
        ∧ t.sm.dirtyCount = s.sm.dirtyCount - 1) ∧
    (captured ≠ some e.generation ∨ overtaken = true →
      (flushFinish g n captured overtaken s).1 = some false
        ∧ lookup g t = some { e with state := .dirty, marker := none, flushFailures := min 3 e.flushFailures }
        ∧ t.sm.dirty = g :: s.sm.dirty ∧ t.sm.reclaim = s.sm.reclaim ∧ t.sm.dirtyCount = s.sm.dirtyCount)

/-- The victim scan: among the first 64 entries of the Reclaim List it sees at most ScanWindow that are not pinned, have no absorb
in flight and no move marker; its victim is the one of lowest decayed heat, the nearest to the head among equals. -/
def Obligations.VictimScan : Prop :=
  ∀ s : State,
    let seen := (((s.sm.reclaim.take 64).filterMap fun g => lookup g s).filter fun e =>
      decide ((evaluate e.segment s).action ≠ .pin) && e.absorbs == 0 && e.marker.isNone).take s.params.scanWindow
    let heat := fun e : Entry => decayHeat s.params.decayMode (s.hu.epoch - e.heat.stamp) e.heat.heat
    (victimScan s = none ↔ seen = []) ∧
    ∀ g hd, victimScan s = some (g, hd) → ∃ before e after, seen = before ++ e :: after ∧ g = e.segment ∧ hd = heat e
      ∧ (∀ x ∈ before, heat e < heat x) ∧ ∀ x ∈ after, heat e ≤ heat x

/-! ## Moves (R111, R112, R115 to R121) -/

/-- When a PENDING move is eligible, and where a move joins the Move Queue: behind every move of its level or above, before every
move below it, the others keeping their order. The chunks of an active promotion: a platter read's OK places the flash write and
starts the next chunk; a flash write's OK adds the chunk to the valid set, and the last one finishes the move. A flush starts
with the dispatch of its first chunk read. With no chunk left in flight, an eligible URGENT move in the queue suspends the active
promotion on top of the Move Stack and becomes active; a third move on the stack spills the bottom one. -/
def Obligations.MoveEligibilityAndOrder : Prop :=
  let promotion : Move → Prop := fun m => m.kind = .promote ∨ m.kind = .directed
  (∀ (m : Move) (s : State), eligible m s = true ↔
    s.lu.mode = .online ∧ s.pm.state = .ready ∧ s.fps.level < moveLevel m ∧ s.pps.level < moveLevel m
      ∧ (promotion m → s.sm.freeList ≠ []
          ∧ ¬ ∃ (tag : Fin 32) (c : Command), commandOf tag s = some c ∧ (c.kind = .write ∨ c.kind = .trim)
            ∧ (if c.held then c.length ≠ 0 ∧ c.start / 128 ≤ m.segment ∧ m.segment ≤ (c.start + c.length - 1) / 128
              else ∃ p ∈ c.pieces, p.segment = m.segment ∧ p.state ≠ .done ∧ p.state ≠ .failed))) ∧
  (∀ (m : Move) (q : List Move), q.Pairwise (fun a b => moveLevel b ≤ moveLevel a) →
    ∃ before after, q = before ++ after ∧ enqueue m q = before ++ m :: after
      ∧ (∀ x ∈ before, moveLevel m ≤ moveLevel x) ∧ ∀ x ∈ after, moveLevel x < moveLevel m) ∧
  ∀ (s : State) (m : Move) (c : Nat), s.lu.mode = .online → s.lu.marker ≠ .resetEngine → s.me.active = some m →
    m.stop = none → c < 4 →
    let rest : Nat → Prop := fun x => (m.needed.getD 0).getLsbD x = true ∧ m.done.getLsbD x = false ∧ x ≠ c
    let last := (m.needed.getD 0) &&& ~~~(m.done ||| BitVec.ofNat 4 (2 ^ c)) = 0
    let chunk : Nat → Nat → Port → Operation → Address → Order := fun x slot port op address =>
      ⟨port, .background, .chunk m.number x, op, address, some (chunkMask x), none, .staging slot, some (moveLevel m)⟩
    (∀ (r : OrderResult) (d : Dispatched) (f : Nat), promotion m → m.preempt = false → m.yielding = false →
      m.needed.isSome = true → m.frame = some f → s.me.queue = [] → s.sm.dirty = [] →
      s.me.slot0 = some ⟨c, .reading⟩ → s.me.slot1 = none →
      (s.pps.outstanding.find? fun x => x.id == r.id) = some d → d.order.origin = .chunk m.number c →
      d.order.op = .read → r.outcome = 0 → s.fps.background.length < 16 →
      128 * m.segment + 128 ≤ s.lu.platterSectors →
      ∃ t, exec (.orderResult .platter r) s = .next t
        ∧ t.fps.background = s.fps.background ++ [chunk c 0 .flash .write (.frame f)]
        ∧ t.me.slot0 = some ⟨c, .writing⟩ ∧ t.me.active = some m ∧ t.me.stack = s.me.stack ∧ t.sm = s.sm
        ∧ ∀ x, x < 4 → rest x → (∀ y, y < x → ¬ rest y) → s.pps.background.length < 16 →
            t.pps.background = s.pps.background ++ [chunk x 1 .platter .read (.platter m.segment)]
              ∧ t.me.slot1 = some ⟨x, .reading⟩) ∧
    (∀ (r : OrderResult) (d : Dispatched) (e : Entry), promotion m → m.needed.isSome = true → movesExact s →
      s.me.slot0 = some ⟨c, .writing⟩ → s.me.slot1 = none →
      (s.fps.outstanding.find? fun x => x.id == r.id) = some d → d.order.origin = .chunk m.number c →
      d.order.op = .write → r.outcome = 0 → lookup m.segment s = some e → e.marker = some m.number →
      e.state = .inbound →
      let written := { e with validity := validityOf (validSet e ||| chunkMask c) }
      let done := { m with done := m.done ||| BitVec.ofNat 4 (2 ^ c) }
      (¬ last → m.preempt = false → s.me.queue = [] → s.sm.dirty = [] →
        ∃ t, exec (.orderResult .flash r) s = .next t ∧ lookup m.segment t = some written
          ∧ t.me.active = some done ∧ t.me.stack = s.me.stack) ∧
      (last → s.me.queue = [] → s.sm.dirty = [] →
        ∃ t, exec (.orderResult .flash r) s = .next t
          ∧ lookup m.segment t = some { written with state := .clean, marker := none }
          ∧ t.sm.reclaim = (s.sm.reclaim.filter fun x => x != m.segment) ++ [m.segment]
          ∧ t.me.active = (s.me.stack.head?.map fun x => { x with state := .active })
          ∧ t.me.stack = s.me.stack.drop 1
          ∧ t.stats[counterIndex .promotionsFinished]
              = (bump .promotionsFinished s).stats[counterIndex .promotionsFinished]) ∧
      (∀ (u : Move) (v : Entry), ¬ last → s.me.queue = [u] → u.kind = .urgent → s.pm.state = .ready →
        s.fps.level < 4 → s.pps.level < 4 → lookup u.segment s = some v →
        let suspended := { done with state := .suspended, preempt := false }
        ∃ t, exec (.orderResult .flash r) s = .next t ∧ t.me.queue = []
          ∧ t.me.active = some { u with
              state := .active
              frame := some v.frame
              firstChunk := lowestChunk (validSet v) }
          ∧ (s.me.stack.length < 2 → t.me.stack = suspended :: s.me.stack)
          ∧ ∀ a b, s.me.stack = [a, b] → t.me.stack = [suspended, a] ∧ t.me.moveSpill = true
              ∧ t.stats[counterIndex .spills] = (bump .spills s).stats[counterIndex .spills])) ∧
    ∀ (o : Order) (e : Entry) (f : Nat), m.kind = .flush ∨ m.kind = .urgent → m.started = false → m.preempt = false →
      s.me.queue = [] → s.me.urgent = false → s.fps.foreground = [] → s.fps.background = [o] →
      s.fps.outstanding.length < 8 → o.origin = .chunk m.number c → o.op = .read → o.address = .frame f →
      o.level = some (moveLevel m) → s.fps.level < moveLevel m → lookup m.segment s = some e →
      e.marker = some m.number → e.state = .dirty →
      ∃ t, exec (.orderDispatch .flash) s = .next t ∧ lookup m.segment t = some { e with state := .flushing }
        ∧ t.sm.dirty = (s.sm.dirty.filter fun x => x != m.segment) ∧ t.sm.dirtyCount = s.sm.dirtyCount
        ∧ t.me.active = some { m with
            captured := some e.generation
            parts := some (validSet e)
            started := true
            needed := some (chunksOf (validSet e)) }
        ∧ ∃ d, t.fps.outstanding = s.fps.outstanding ++ [d] ∧ d.order = o

/-! ## Ranges, heat and streams (R34, R37 to R41, R54, R55, R62 to R65) -/

/-- When a slot matches a segment, INSIDE and OUTSIDE, and that an end beyond the platter matches as the platter's last LBA. -/
def Obligations.SlotMatchesSegment : Prop :=
  ∀ (segment : Nat) (r : RangeSlot),
    (r.mode = .inside → (slotMatches segment r = true ↔ 128 * segment ≤ r.stop ∧ r.start ≤ 128 * segment + 127)) ∧
    (r.mode = .outside → (slotMatches segment r = true ↔ 128 * segment + 127 < r.start ∨ r.stop < 128 * segment)) ∧
    (r.start ≤ r.stop → (slotMatches segment { r with mode := .inside } = true ↔
      ∃ lba, 128 * segment ≤ lba ∧ lba ≤ 128 * segment + 127 ∧ r.start ≤ lba ∧ lba ≤ r.stop)) ∧
    (slotMatches segment { r with mode := .inside } = true ↔ slotMatches segment { r with mode := .outside } = false) ∧
    ∀ sectors : Nat, 128 * segment < sectors → sectors - 1 < r.stop →
      slotMatches segment r = slotMatches segment { r with stop := sectors - 1 }

/-- The verdict of an evaluation: its action, its governing slot and its boost, each from the enabled slots that match. -/
def Obligations.VerdictOfSegment : Prop :=
  ∀ (segment : Nat) (s : State),
    let governs : RangeAction → Fin 16 → Prop := fun a i =>
      s.rc.ranges[i].enabled = true ∧ s.rc.ranges[i].action = a ∧ slotMatches segment s.rc.ranges[i] = true
    let any : RangeAction → Prop := fun a => ∃ i, governs a i
    let lowest : RangeAction → Option Nat → Prop := fun a g =>
      ∃ i : Fin 16, g = some i.val ∧ governs a i ∧ ∀ j : Fin 16, j < i → ¬ governs a j
    let v := evaluate segment s
    (any .bypass → v.action = .bypass ∧ lowest .bypass v.governing) ∧
    (¬ any .bypass → any .pin → v.action = .pin ∧ lowest .pin v.governing) ∧
    (¬ any .bypass → ¬ any .pin → any .boost4 → v.action = .boost4 ∧ lowest .boost4 v.governing) ∧
    (¬ any .bypass → ¬ any .pin → ¬ any .boost4 → any .boost2 → v.action = .boost2 ∧ lowest .boost2 v.governing) ∧
    (¬ any .bypass → ¬ any .pin → ¬ any .boost4 → ¬ any .boost2 → v.action = .none ∧ v.governing = none) ∧
    (any .boost4 → v.boost = 4) ∧ (¬ any .boost4 → any .boost2 → v.boost = 2) ∧
    (¬ any .boost4 → ¬ any .boost2 → v.boost = 1) ∧
    (pinned segment s = true ↔ v.action = .pin)

/-- The contribution of an access: W times F times B, or 0 for a sequential command of a class without STREAMS_COUNT; at most
4080. -/
def Obligations.ContributionOfAccess : Prop :=
  ∀ (c : Command) (segment : Nat) (s : State), c.kind = .read ∨ c.kind = .write → 1 ≤ c.length → c.length ≤ 8192 →
    c.classCopy.readWeight ≤ 255 → c.classCopy.writeWeight ≤ 255 →
    let b := (evaluate segment s).boost
    let w := if c.kind = .read then c.classCopy.readWeight else c.classCopy.writeWeight
    (c.sequential = true → c.classCopy.streamsCount = false → contribution c b = 0) ∧
    (c.sequential = false ∨ c.classCopy.streamsCount = true →
      (c.length ≤ 16 → contribution c b = w * 4 * b) ∧
      (17 ≤ c.length → c.length ≤ 64 → contribution c b = w * 2 * b) ∧
      (65 ≤ c.length → contribution c b = w * 1 * b)) ∧
    contribution c b ≤ 4080

/-- Decay: HALVE divides a heat by 2^k and GENTLE takes three quarters k times over, each to 0 at the ages R34 names; at age 0 the
heat stands, and from age 1 on the decayed mark is clear. -/
def Obligations.DecayOfHeat : Prop :=
  (∀ h k : Nat, h ≤ 65535 → decayHeat .halve k h = h / 2 ^ k) ∧
  (∀ h k : Nat, h ≤ 65535 → decayHeat .gentle k h = (fun v => 3 * v / 4)^[k] h) ∧
  (∀ h k : Nat, 16 ≤ k → decayHeat .halve k h = 0) ∧ (∀ h k : Nat, 40 ≤ k → decayHeat .gentle k h = 0) ∧
  (∀ k : Nat, 37 ≤ k → decayHeat .gentle k 65535 = 0) ∧
  ∀ (r : HeatRec) (s : State), (r.stamp = s.hu.epoch → decayedHeat r s = r.heat ∧ decayedMark r s = r.saturated) ∧
    (r.stamp < s.hu.epoch → decayedMark r s = false)

/-- A heat update of an absent segment: its candidate is updated in its way; without one, a contribution of 0 records nothing, an
empty way takes the segment, and in a full set the coldest candidate gives way when it is no hotter than the contribution. -/
def Obligations.CandidateTableUpdate : Prop :=
  ∀ (g c : Nat) (s : State), candidatesWf s.hu.candidates →
    let t := (heatAbsent g c s).2
    let fresh : HeatRec := ⟨c, s.hu.epoch, false⟩
    let inSet : Nat → Prop := fun p => p / 4 = g % 1024
    candidatesWf t.hu.candidates ∧
    (∀ x ∈ s.hu.candidates, x.segment = g →
      (heatAbsent g c s).1 = min 65535 (decayedHeat x.heat s + c)
        ∧ t.hu.candidates = s.hu.candidates.map fun y =>
            if y.segment = g then { y with heat := updatedRec x.heat c s } else y) ∧
    ((∀ x ∈ s.hu.candidates, x.segment ≠ g) →
      (heatAbsent g c s).1 = c ∧
      (c = 0 → t = s) ∧
      (∀ p, 1 ≤ c → inSet p → (∀ x ∈ s.hu.candidates, x.place ≠ p) →
        (∀ q, q < p → inSet q → ∃ x ∈ s.hu.candidates, x.place = q) →
        ∀ y, y ∈ t.hu.candidates ↔ y ∈ s.hu.candidates ∨ y = ⟨p, g, fresh⟩) ∧
      ∀ v ∈ s.hu.candidates, 1 ≤ c → inSet v.place → (∀ q, inSet q → ∃ x ∈ s.hu.candidates, x.place = q) →
        (∀ x ∈ s.hu.candidates, inSet x.place → decayedHeat v.heat s ≤ decayedHeat x.heat s) →
        (∀ x ∈ s.hu.candidates, inSet x.place → x.place < v.place → decayedHeat v.heat s < decayedHeat x.heat s) →
        (decayedHeat v.heat s ≤ c →
          ∀ y, y ∈ t.hu.candidates ↔ (y ∈ s.hu.candidates ∧ y ≠ v) ∨ y = ⟨v.place, g, fresh⟩) ∧
        (c < decayedHeat v.heat s → t = bump .candidateDrops s))

/-- The consultation of the Stream Detector: a command that starts where a valid record's train ends continues it and is
sequential when the run had reached StreamThreshold; any other opens a train in the lowest-numbered invalid record, or in the
least recently used one. -/
def Obligations.StreamConsultation : Prop :=
  ∀ (start length : Nat) (s : State), streamsWf s.streams →
    let t := (consultStreams start length s).2
    streamsWf t.streams ∧
    (∀ i : Fin 8, s.streams[i].valid = true → s.streams[i].next = start →
      (consultStreams start length s).1 = decide (s.params.streamThreshold ≤ s.streams[i].run)
        ∧ t.streams[i] = ⟨true, start + length, min 65535 (s.streams[i].run + length), 0⟩) ∧
    ((∀ i : Fin 8, s.streams[i].valid = true → s.streams[i].next ≠ start) →
      (consultStreams start length s).1 = false
        ∧ ∀ i : Fin 8,
            (s.streams[i].valid = false ∧ ∀ j : Fin 8, j < i → s.streams[j].valid = true)
              ∨ ((∀ j : Fin 8, s.streams[j].valid = true) ∧ s.streams[i].rank = 7) →
            t.streams[i] = ⟨true, start + length, min 65535 length, 0⟩) ∧
    t.cu.inUse.getLsbD 4 = true ∧ t.cu.modified.getLsbD 4 = true ∧ t.lu = s.lu ∧ t.sm = s.sm ∧ t.hu = s.hu
      ∧ t.ct = s.ct

/-! ## Invariants of the whole machine -/

/-- The invariants below hold right after power-on reset. -/
def Obligations.InvariantsAtReset : Prop :=
  modeConsistent State.reset ∧ linkSum State.reset = 0 ∧ arrivalExact State.reset ∧ streamsWf State.reset.streams
    ∧ candidatesWf State.reset.hu.candidates ∧ countersBounded State.reset ∧ portsBounded State.reset
    ∧ noticesBounded State.reset ∧ paramsInRange State.reset ∧ mapExact State.reset ∧ movesExact State.reset
    ∧ workViewTrue State.reset

/-- Every step keeps the Engine Mode, the long-transaction marker and the Checkpoint Unit's operation in agreement. -/
def Obligations.ModeStaysConsistent : Prop :=
  ∀ s t : State, modeConsistent s → step s = .next t → modeConsistent t

/-- The Engine Mode changes only at the events of the table of R186 and at power-on: whatever a command does beside, it leaves the
mode or makes a change that the table gives it. -/
def Obligations.ModeChangesByTable : Prop :=
  ∀ (c : Instr) (s t : State), modeConsistent s → exec c s = .next t →
    t.lu.mode = s.lu.mode ∨ modeChange c s.lu.mode t.lu.mode

/-- The completion queue never overflows: the sum of R204 stays at or below 64 in every step. -/
def Obligations.CompletionQueueNeverOverflows : Prop :=
  ∀ s t : State, modeConsistent s → linkSum s ≤ 64 → step s = .next t → linkSum t ≤ 64

/-- Every step keeps the Arrival List the list of the occupied slots, each once. -/
def Obligations.ArrivalListStaysExact : Prop :=
  ∀ s t : State, arrivalExact s → step s = .next t → arrivalExact t

/-- Every step keeps the stream records and the Candidate Table in the form that R62, R65 and R38 describe, and the Segment Map
exact: every frame FREE, BOUND, TRIMMING or RETIRED as R20 says, the Reclaim List the CLEAN entries (R24), the Dirty List the
DIRTY ones, and the dirty count their number with the FLUSHING ones (R25). -/
def Obligations.TablesStayWellFormed : Prop :=
  ∀ s t : State, step s = .next t →
    (streamsWf s.streams → streamsWf t.streams) ∧ (candidatesWf s.hu.candidates → candidatesWf t.hu.candidates) ∧
    (mapExact s → mapExact t)

/-- Every step keeps each statistics counter within 32 bits, the notice queue within 8 with no kind deferred twice, and every
parameter in its range. -/
def Obligations.BoundsStay : Prop :=
  ∀ s t : State, step s = .next t →
    (countersBounded s → countersBounded t) ∧ (noticesBounded s → noticesBounded t) ∧
    (modeConsistent s → paramsInRange s → paramsInRange t)

/-- Every step keeps both schedulers within their bounds: 64 Foreground, 16 Background, 8 or 4 outstanding orders, a starvation
count of 16 and a level of 4. It keeps the moves in their places, each with its own number and segment, and the work view true
outside a Reset Engine. -/
def Obligations.PortsStayBounded : Prop :=
  ∀ s t : State, step s = .next t →
    (portsBounded s → portsBounded t) ∧ (movesExact s → movesExact t) ∧
    (modeConsistent s → movesExact s → (s.lu.marker ≠ .resetEngine → workViewTrue s) →
      t.lu.marker ≠ .resetEngine → workViewTrue t)

/-! ## Record formats (11.1, R207, R208) -/

/-- Exactly the descriptor, the Link Reset, the control transactions and the two kinds of record the Link Unit does not know are
records of the Command Link, and reading one gives back the command that was written as it, with every field at every value it
can take. -/
def Obligations.DecodeOfEncode : Prop :=
  (∀ c : Instr, (encodeLink c).isSome = true ↔ (txnOf c).isSome = true ∨ c = .linkReset
    ∨ (∃ d, c = .commandDescriptor d) ∨ (∃ type, c = .discardedRecord type) ∨ ∃ kind h, c = .unknownKind kind h) ∧
  ∀ (c : Instr) (bs : List Byte), c.wellFormed = true → encodeLink c = some bs → decodeLink bs = some c
end

