-- ==== Sys2Proof/Laws/Calm.lean ====
section
/-! SUPPORT. What the blocks leave alone. `calmPart` gathers the Engine Mode, the marker, the configuration values, the completion
queue, the tables and parameters, the occupancy of the tag slots, the Arrival List, the kind of the Checkpoint Unit's operation,
and the model's own fields; every operation of the Segment Map, the Heat Unit, the ports, the monitor, the Migration Engine and
the Placement Unit leaves all of it as it was. One lemma per operation, in the order of the files. -/

namespace Sys2Proof.Machine

/-- The kind of a Checkpoint Unit operation, its progress left out. -/
def opKind : CuOperation → Nat
  | .idle => 0
  | .quiescing _ _ => 1
  | .saving _ => 2
  | .restoreDraining _ => 3
  | .restoring _ => 4
  | .rebuildDraining => 5
  | .rebuilding _ => 6

/-- The state that the end of a command or of a Checkpoint Unit operation does not change either. -/
structure BasePart where
  mode : EngineMode
  marker : LongMarker
  markerSeq : Byte
  frameCount : Nat
  platterSectors : Nat
  checkpointBlocks : Nat
  rc : RangeComparator
  params : Params
  timebase : BitVec 32
  responseWire : List Byte
  untaken : List Instr
  freeIndex : Nat
  pending : List Instr
  op : Nat
  image : Header
  layout : Option Layout

/-- The base part with the completion queue, the use number and occupancy of every tag slot, and the Arrival List. -/
structure CalmPart where
  base : BasePart
  completions : List Completion
  tags : List (BitVec 16 × Bool)
  arrival : List (Fin 32)

/-- The base part of a state. -/
def basePart (s : State) : BasePart :=
  ⟨s.lu.mode, s.lu.marker, s.lu.markerSeq, s.lu.frameCount, s.lu.platterSectors, s.lu.checkpointBlocks, s.rc, s.params,
    s.timebase, s.responseWire, s.untaken, s.freeIndex, s.pending, opKind s.cu.operation, s.cu.image, s.cu.layout⟩

/-- The use number and the occupancy of every tag slot. -/
def tagsOf (v : Vector TagSlot 32) : List (BitVec 16 × Bool) := v.toList.map fun t => (t.useNo, t.command.isSome)

/-- The calm part of a state. -/
def calmPart (s : State) : CalmPart := ⟨basePart s, s.lu.completions, tagsOf s.ct.slots, s.ct.arrival⟩

@[simp] theorem calmPart_mk (a b c d e f g h i j k l m n o p q r t u v) :
    calmPart (State.mk a b c d e f g h i j k l m n o p q r t u v) =
      ⟨⟨a.mode, a.marker, a.markerSeq, a.frameCount, a.platterSectors, a.checkpointBlocks, e, g, o, p, t, u, v,
        opKind m.operation, m.image, m.layout⟩, a.completions, tagsOf b.slots, b.arrival⟩ := rfl

@[simp] theorem calmPart_fold (s : State) :
    CalmPart.mk ⟨s.lu.mode, s.lu.marker, s.lu.markerSeq, s.lu.frameCount, s.lu.platterSectors, s.lu.checkpointBlocks,
      s.rc, s.params, s.timebase, s.responseWire, s.untaken, s.freeIndex, s.pending, opKind s.cu.operation, s.cu.image,
      s.cu.layout⟩ s.lu.completions (tagsOf s.ct.slots) s.ct.arrival = calmPart s := rfl

@[simp] theorem opKind_clearWaiting (o : CuOperation) : opKind (clearWaiting o) = opKind o := by cases o <;> rfl

@[simp] theorem touch_calm (c : Fin 6) (s : State) : calmPart (touch c s) = calmPart s := by
  unfold touch
  repeat' first | with_reducible rfl | split | simp

@[simp] theorem bump_calm (k : Counter) (s : State) : calmPart (bump k s) = calmPart s := by
  unfold bump
  repeat' first | with_reducible rfl | split | simp

@[simp] theorem clearCount_calm (k : NoticeKind) (s : State) : calmPart (clearCount k s) = calmPart s := by
  unfold clearCount
  repeat' first | with_reducible rfl | split | simp

@[simp] theorem post_calm (k : NoticeKind) (s : State) : calmPart (post k s) = calmPart s := by
  unfold post
  repeat' first | with_reducible rfl | split | simp

@[simp] theorem occur_calm (k : NoticeKind) (argument : Nat) (s : State) : calmPart (occur k argument s) = calmPart s := by
  unfold occur
  repeat' first | with_reducible rfl | split | simp

@[simp] theorem clearSticky_calm (s : State) : calmPart (clearSticky s) = calmPart s := by
  unfold clearSticky
  repeat' first | with_reducible rfl | split | simp

@[simp] theorem consultStreams_calm (start : Nat) (length : Nat) (s : State) : calmPart (consultStreams start length s).2 = calmPart s := by
  unfold consultStreams
  repeat' first | with_reducible rfl | split | simp

@[simp] theorem clearStreams_calm (s : State) : calmPart (clearStreams s) = calmPart s := by
  unfold clearStreams
  repeat' first | with_reducible rfl | split | simp

@[simp] theorem streamEvent_calm (e : ClearEvent) (s : State) : calmPart (streamEvent e s) = calmPart s := by
  unfold streamEvent
  repeat' first | with_reducible rfl | split | simp

@[simp] theorem advanceEpoch_calm (s : State) : calmPart (advanceEpoch s) = calmPart s := by
  unfold advanceEpoch
  repeat' first | with_reducible rfl | split | simp

@[simp] theorem agingEvent_calm (s : State) : calmPart (agingEvent s) = calmPart s := by
  unfold agingEvent
  repeat' first | with_reducible rfl | split | simp

@[simp] theorem residueTick_calm (s : State) : calmPart (residueTick s) = calmPart s := by
  unfold residueTick
  repeat' first | with_reducible rfl | split | simp

@[simp] theorem heatLimitReached_calm (segment : Nat) (s : State) : calmPart (heatLimitReached segment s) = calmPart s := by
  unfold heatLimitReached
  repeat' first | with_reducible rfl | split | simp

@[simp] theorem storeCandidate_calm (c : Candidate) (s : State) : calmPart (storeCandidate c s) = calmPart s := by
  unfold storeCandidate
  repeat' first | with_reducible rfl | split | simp

@[simp] theorem heatAbsent_calm (segment : Nat) (c : Nat) (s : State) : calmPart (heatAbsent segment c s).2 = calmPart s := by
  unfold heatAbsent
  repeat' first | with_reducible rfl | split | simp

@[simp] theorem heatPresent_calm (e : Entry) (c : Nat) (s : State) : calmPart (heatPresent e c s).2 = calmPart s := by
  unfold heatPresent
  repeat' first | with_reducible rfl | split | simp

@[simp] theorem heatUpdate_calm (segment : Nat) (cmd : Command) (boost : Nat) (s : State) : calmPart (heatUpdate segment cmd boost s).2 = calmPart s := by
  unfold heatUpdate
  repeat' first | with_reducible rfl | split | simp

@[simp] theorem takeCandidate_calm (segment : Nat) (s : State) : calmPart (takeCandidate segment s).2 = calmPart s := by
  unfold takeCandidate
  repeat' first | with_reducible rfl | split | simp

@[simp] theorem discardMapped_calm (s : State) : calmPart (discardMapped s) = calmPart s := by
  unfold discardMapped
  repeat' first | with_reducible rfl | split | simp

@[simp] theorem clampCandidates_calm (s : State) : calmPart (clampCandidates s) = calmPart s := by
  unfold clampCandidates
  repeat' first | with_reducible rfl | split | simp

@[simp] theorem clampEntries_calm (s : State) : calmPart (clampEntries s) = calmPart s := by
  unfold clampEntries
  repeat' first | with_reducible rfl | split | simp

@[simp] theorem reconcile_calm (s : State) : calmPart (reconcile s) = calmPart s := by
  unfold reconcile
  repeat' first | with_reducible rfl | split | simp

@[simp] theorem callPass_calm (s : State) : calmPart (callPass s) = calmPart s := by
  unfold callPass
  repeat' first | with_reducible rfl | split | simp

@[simp] theorem spinUpTest_calm (s : State) : calmPart (spinUpTest s) = calmPart s := by
  unfold spinUpTest
  repeat' first | with_reducible rfl | split | simp

@[simp] theorem quietTest_calm (s : State) : calmPart (quietTest s) = calmPart s := by
  unfold quietTest
  repeat' first | with_reducible rfl | split | simp

@[simp] theorem reportWork_calm (s : State) : calmPart (reportWork s) = calmPart s := by
  unfold reportWork
  repeat' first | with_reducible rfl | split | simp

@[simp] theorem watchDispatch_calm (id : Byte) (s : State) : calmPart (watchDispatch id s) = calmPart s := by
  unfold watchDispatch
  repeat' first | with_reducible rfl | split | simp

@[simp] theorem degradeTest_calm (s : State) : calmPart (degradeTest s) = calmPart s := by
  unfold degradeTest
  repeat' first | with_reducible rfl | split | simp

@[simp] theorem watchResult_calm (id : Byte) (service : Nat) (s : State) : calmPart (watchResult id service s) = calmPart s := by
  unfold watchResult
  repeat' first | with_reducible rfl | split | simp

@[simp] theorem interruptWatch_calm (old : PlatterState) (new : PlatterState) (s : State) : calmPart (interruptWatch old new s) = calmPart s := by
  unfold interruptWatch
  repeat' first | with_reducible rfl | split | simp

@[simp] theorem stoppedPeriod_calm (old : PlatterState) (new : PlatterState) (s : State) : calmPart (stoppedPeriod old new s) = calmPart s := by
  unfold stoppedPeriod
  repeat' first | with_reducible rfl | split | simp

@[simp] theorem degradeClear_calm (old : PlatterState) (new : PlatterState) (s : State) : calmPart (degradeClear old new s) = calmPart s := by
  unfold degradeClear
  repeat' first | with_reducible rfl | split | simp

@[simp] theorem setPlatter_calm (new : PlatterState) (s : State) : calmPart (setPlatter new s) = calmPart s := by
  unfold setPlatter
  repeat' first | with_reducible rfl | split | simp

@[simp] theorem quietTick_calm (s : State) : calmPart (quietTick s) = calmPart s := by
  unfold quietTick
  repeat' first | with_reducible rfl | split | simp

@[simp] theorem setSched_calm (p : Port) (q : Scheduler) (s : State) : calmPart (setSched p q s) = calmPart s := by
  unfold setSched
  repeat' first | with_reducible rfl | split | simp

@[simp] theorem placeForeground_calm (o : Order) (s : State) : calmPart (placeForeground o s) = calmPart s := by
  unfold placeForeground
  repeat' first | with_reducible rfl | split | simp

@[simp] theorem placeBackground_calm (o : Order) (s : State) : calmPart (placeBackground o s) = calmPart s := by
  unfold placeBackground
  repeat' first | with_reducible rfl | split | simp

@[simp] theorem askTrim_calm (f : Nat) (s : State) : calmPart (askTrim f s) = calmPart s := by
  unfold askTrim
  repeat' first | with_reducible rfl | split | simp

@[simp] theorem askLabelUpdate_calm (f : Nat) (captured : Byte) (s : State) : calmPart (askLabelUpdate f captured s) = calmPart s := by
  unfold askLabelUpdate
  repeat' first | with_reducible rfl | split | simp

@[simp] theorem refillHeld_calm (s : State) : calmPart (refillHeld s) = calmPart s := by
  unfold refillHeld
  repeat' first | with_reducible rfl | split | simp

@[simp] theorem placeLabelReads_calm (s : State) : calmPart (placeLabelReads s) = calmPart s := by
  unfold placeLabelReads
  split <;> simp [calmPart, basePart, opKind, *]

@[simp] theorem placeCheckpoint_calm (s : State) : calmPart (placeCheckpoint s) = calmPart s := by
  unfold placeCheckpoint
  repeat' split
  · rw [placeBackground_calm]; simp
  · rfl
  · simp

@[simp] theorem giveRoom_calm (s : State) : calmPart (giveRoom s) = calmPart s := by
  unfold giveRoom
  repeat' first | with_reducible rfl | split | simp

@[simp] theorem takeBackChunks_calm (number : Byte) (s : State) : calmPart (takeBackChunks number s) = calmPart s := by
  unfold takeBackChunks
  repeat' first | with_reducible rfl | split | simp

@[simp] theorem dropFrameOrders_calm (f : Nat) (s : State) : calmPart (dropFrameOrders f s) = calmPart s := by
  unfold dropFrameOrders
  repeat' first | with_reducible rfl | split | simp

@[simp] theorem dropForeground_calm (s : State) : calmPart (dropForeground s) = calmPart s := by
  unfold dropForeground
  repeat' first | with_reducible rfl | split | simp

@[simp] theorem tagsOf_setCommand (v : Vector TagSlot 32) (tag : Fin 32) (c : Option Command)
    (h : c.isSome = v[tag].command.isSome) : tagsOf (v.set tag { v[tag] with command := c }) = tagsOf v := by
  unfold tagsOf
  apply List.ext_getElem
  · simp
  · intro i h1 h2
    by_cases hi : tag.val = i
    · subst hi; simp_all
    · simp [Vector.getElem_set, hi]

@[simp] theorem modifyCommand_calm (tag : Fin 32) (f : Command → Command) (s : State) :
    calmPart (modifyCommand tag f s) = calmPart s := by
  have := tagsOf_setCommand s.ct.slots tag (s.ct.slots[tag].command.map f) (by simp)
  simp only [modifyCommand, calmPart_mk, this]
  rfl

@[simp] theorem modifyPiece_calm (tag : Fin 32) (segment : Nat) (f : Piece → Piece) (s : State) : calmPart (modifyPiece tag segment f s) = calmPart s := by
  unfold modifyPiece
  repeat' first | with_reducible rfl | split | simp

@[simp] theorem mapPieces_calm (f : Fin 32 → Command → Piece → Piece) (s : State) :
    calmPart (mapPieces f s) = calmPart s := by
  have : tagsOf (Vector.ofFn fun t : Fin 32 =>
      { s.ct.slots[t] with
        command := s.ct.slots[t].command.map fun c => { c with pieces := c.pieces.map (f t c) } })
      = tagsOf s.ct.slots := by
    unfold tagsOf
    apply List.ext_getElem
    · simp
    · intro i h1 h2; simp
  simp only [mapPieces, calmPart_mk, this]
  rfl

@[simp] theorem releaseWhere_calm (test : Fin 32 → Command → Piece → Bool) (s : State) :
    calmPart (releaseWhere test s) = calmPart s := by
  unfold releaseWhere
  split
  · rw [callPass_calm, mapPieces_calm]
  · rfl

@[simp] theorem releaseHolds_calm (s : State) : calmPart (releaseHolds s) = calmPart s := by
  unfold releaseHolds
  repeat' first | with_reducible rfl | split | simp

@[simp] theorem splitCommand_calm (tag : Fin 32) (s : State) : calmPart (splitCommand tag s) = calmPart s := by
  unfold splitCommand
  repeat' first | with_reducible rfl | split | simp

@[simp] theorem modifyPart_calm (tag : Fin 32) (segment : Nat) (i : Nat) (f : OrderPart → OrderPart) (s : State) : calmPart (modifyPart tag segment i f s) = calmPart s := by
  unfold modifyPart
  repeat' first | with_reducible rfl | split | simp

@[simp] theorem placePart_calm (tag : Fin 32) (segment : Nat) (i : Nat) (s : State) : calmPart (placePart tag segment i s) = calmPart s := by
  unfold placePart
  repeat' first | with_reducible rfl | split | simp

@[simp] theorem reissue_calm (tag : Fin 32) (segment : Nat) (i : Nat) (s : State) : calmPart (reissue tag segment i s) = calmPart s := by
  unfold reissue
  repeat' first | with_reducible rfl | split | simp

@[simp] theorem withdrawn_calm (o : Order) (s : State) : calmPart (withdrawn o s) = calmPart s := by
  unfold withdrawn
  repeat' first | with_reducible rfl | split | simp

@[simp] theorem countPiece_calm (kind : CommandKind) (p : Piece) (s : State) : calmPart (countPiece kind p s) = calmPart s := by
  unfold countPiece
  repeat' first | with_reducible rfl | split | simp

@[simp] theorem holdForSave_calm (s : State) : calmPart (holdForSave s) = calmPart s := mapPieces_calm _ s

@[simp] theorem saveToRoute_calm (s : State) : calmPart (saveToRoute s) = calmPart s := mapPieces_calm _ s

@[simp] theorem keepSlots_calm (test : ChunkSlot → Bool) (s : State) : calmPart (keepSlots test s) = calmPart s := by
  unfold keepSlots
  repeat' first | with_reducible rfl | split | simp

@[simp] theorem freeChunk_calm (c : Nat) (s : State) : calmPart (freeChunk c s) = calmPart s := by
  unfold freeChunk
  repeat' first | with_reducible rfl | split | simp

@[simp] theorem setStage_calm (c : Nat) (st : ChunkStage) (s : State) : calmPart (setStage c st s) = calmPart s := by
  unfold setStage
  repeat' first | with_reducible rfl | split | simp

@[simp] theorem modifyActive_calm (f : Move → Move) (s : State) : calmPart (modifyActive f s) = calmPart s := by
  unfold modifyActive
  repeat' first | with_reducible rfl | split | simp

@[simp] theorem removeMove_calm (number : Byte) (s : State) : calmPart (removeMove number s) = calmPart s := by
  unfold removeMove
  repeat' first | with_reducible rfl | split | simp

@[simp] theorem pullOrders_calm (number : Byte) (s : State) : calmPart (pullOrders number s) = calmPart s := by
  unfold pullOrders
  repeat' first | with_reducible rfl | split | simp

@[simp] theorem endByYield_calm (number : Byte) (s : State) : calmPart (endByYield number s) = calmPart s := by
  unfold endByYield
  split <;> simp

@[simp] theorem markStop_calm (cause : StopCause) (s : State) : calmPart (markStop cause s) = calmPart s := by
  unfold markStop
  repeat' first | with_reducible rfl | split | simp

@[simp] theorem overtake_calm (number : Byte) (s : State) : calmPart (overtake number s) = calmPart s := by
  unfold overtake
  repeat' first | with_reducible rfl | split | simp

@[simp] theorem endOfEntry_calm (marker : Option Byte) (s : State) : calmPart (endOfEntry marker s) = calmPart s := by
  unfold endOfEntry
  repeat' first | with_reducible rfl | split | simp

@[simp] theorem compareDirty_calm (s : State) : calmPart (compareDirty s) = calmPart s := by
  unfold compareDirty
  repeat' first | with_reducible rfl | split | simp

@[simp] theorem modifyEntry_calm (segment : Nat) (f : Entry → Entry) (s : State) : calmPart (modifyEntry segment f s) = calmPart s := by
  unfold modifyEntry
  repeat' first | with_reducible rfl | split | simp

@[simp] theorem toReclaimTail_calm (segment : Nat) (s : State) : calmPart (toReclaimTail segment s) = calmPart s := by
  unfold toReclaimTail
  repeat' first | with_reducible rfl | split | simp

@[simp] theorem offLists_calm (segment : Nat) (s : State) : calmPart (offLists segment s) = calmPart s := by
  unfold offLists
  repeat' first | with_reducible rfl | split | simp

@[simp] theorem setDirtyCount_calm (n : Nat) (s : State) : calmPart (setDirtyCount n s) = calmPart s := by
  unfold setDirtyCount
  repeat' first | with_reducible rfl | split | simp

@[simp] theorem frameLeavesBound_calm (f : Nat) (s : State) : calmPart (frameLeavesBound f s) = calmPart s := by
  have h : ∀ (os : List Order) (t : State), calmPart (os.foldl (fun t o => withdrawn o t) t) = calmPart t := by
    intro os
    induction os with
    | nil => simp
    | cons o os ih => intro t; simp [ih]
  unfold frameLeavesBound
  dsimp only
  split <;> simp [h]

@[simp] theorem removeEntry_calm (segment : Nat) (s : State) : calmPart (removeEntry segment s) = calmPart s := by
  unfold removeEntry
  repeat' first | with_reducible rfl | split | simp

@[simp] theorem emptying_calm (segment : Nat) (s : State) : calmPart (emptying segment s) = calmPart s := by
  unfold emptying
  repeat' first | with_reducible rfl | split | simp

@[simp] theorem dropIfUnused_calm (segment : Nat) (s : State) : calmPart (dropIfUnused segment s) = calmPart s := by
  unfold dropIfUnused
  repeat' first | with_reducible rfl | split | simp

@[simp] theorem createEntry_calm (segment : Nat) (st : EntryState) (absorbs : Nat) (marker : Option Byte) (s : State) :
    calmPart (createEntry segment st absorbs marker s).2 = calmPart s := by
  unfold createEntry
  split
  · rfl
  · have := takeCandidate_calm segment s
    simpa using this

@[simp] theorem convertInbound_calm (segment : Nat) (s : State) : calmPart (convertInbound segment s) = calmPart s := by
  unfold convertInbound
  repeat' first | with_reducible rfl | split | simp

@[simp] theorem absorbRequest_calm (segment : Nat) (s : State) : calmPart (absorbRequest segment s).2 = calmPart s := by
  unfold absorbRequest
  repeat' first | with_reducible rfl | split | simp

@[simp] theorem absorbOk_calm (segment : Nat) (f : Nat) (written : SectorSet) (s : State) : calmPart (absorbOk segment f written s) = calmPart s := by
  unfold absorbOk
  repeat' first | with_reducible rfl | split | simp

@[simp] theorem absorbError_calm (segment : Nat) (f : Nat) (written : SectorSet) (s : State) : calmPart (absorbError segment f written s) = calmPart s := by
  unfold absorbError
  repeat' first | with_reducible rfl | split | simp

@[simp] theorem absorbWithdrawn_calm (segment : Nat) (f : Nat) (s : State) : calmPart (absorbWithdrawn segment f s) = calmPart s := by
  unfold absorbWithdrawn
  repeat' first | with_reducible rfl | split | simp

@[simp] theorem readError_calm (segment : Nat) (f : Nat) (read : SectorSet) (s : State) : calmPart (readError segment f read s).2 = calmPart s := by
  unfold readError
  repeat' first | with_reducible rfl | split | simp

@[simp] theorem trimEntry_calm (segment : Nat) (trimmed : SectorSet) (s : State) : calmPart (trimEntry segment trimmed s) = calmPart s := by
  unfold trimEntry
  repeat' first | with_reducible rfl | split | simp

@[simp] theorem trimEffect_calm (segment : Nat) (trimmed : SectorSet) (s : State) : calmPart (trimEffect segment trimmed s) = calmPart s := by
  unfold trimEffect
  repeat' first | with_reducible rfl | split | simp

@[simp] theorem promotionWrite_calm (segment : Nat) (number : Byte) (c : Nat) (s : State) : calmPart (promotionWrite segment number c s) = calmPart s := by
  unfold promotionWrite
  repeat' first | with_reducible rfl | split | simp

@[simp] theorem promotionFinish_calm (segment : Nat) (number : Byte) (s : State) : calmPart (promotionFinish segment number s) = calmPart s := by
  unfold promotionFinish
  repeat' first | with_reducible rfl | split | simp

@[simp] theorem promotionAbandoned_calm (segment : Nat) (number : Byte) (s : State) : calmPart (promotionAbandoned segment number s) = calmPart s := by
  unfold promotionAbandoned
  repeat' first | with_reducible rfl | split | simp

@[simp] theorem flushRequest_calm (segment : Nat) (number : Byte) (s : State) : calmPart (flushRequest segment number s).2 = calmPart s := by
  unfold flushRequest
  repeat' first | with_reducible rfl | split | simp

@[simp] theorem flushStart_calm (segment : Nat) (number : Byte) (s : State) : calmPart (flushStart segment number s).2 = calmPart s := by
  unfold flushStart
  repeat' first | with_reducible rfl | split | simp

@[simp] theorem flushDropped_calm (segment : Nat) (number : Byte) (s : State) : calmPart (flushDropped segment number s) = calmPart s := by
  unfold flushDropped
  repeat' first | with_reducible rfl | split | simp

@[simp] theorem flushReturns_calm (segment : Nat) (failures : Nat) (s : State) : calmPart (flushReturns segment failures s) = calmPart s := by
  unfold flushReturns
  repeat' first | with_reducible rfl | split | simp

@[simp] theorem flushFinish_calm (segment : Nat) (number : Byte) (captured : Option Byte) (overtaken : Bool) (s : State) : calmPart (flushFinish segment number captured overtaken s).2 = calmPart s := by
  unfold flushFinish
  repeat' first | with_reducible rfl | split | simp

@[simp] theorem flushAbandoned_calm (segment : Nat) (number : Byte) (cause : StopCause) (s : State) : calmPart (flushAbandoned segment number cause s) = calmPart s := by
  unfold flushAbandoned
  repeat' first | with_reducible rfl | split | simp

@[simp] theorem frameDispatched_calm (f : Nat) (s : State) : calmPart (frameDispatched f s) = calmPart s := by
  unfold frameDispatched
  repeat' first | with_reducible rfl | split | simp

@[simp] theorem frameReturned_calm (f : Nat) (ofTrim : Bool) (s : State) : calmPart (frameReturned f ofTrim s) = calmPart s := by
  unfold frameReturned
  repeat' first | with_reducible rfl | split | simp

@[simp] theorem trimResult_calm (f : Nat) (ok : Bool) (s : State) : calmPart (trimResult f ok s) = calmPart s := by
  unfold trimResult
  repeat' first | with_reducible rfl | split | simp

@[simp] theorem evict_calm (segment : Nat) (s : State) : calmPart (evict segment s).2 = calmPart s := by
  unfold evict
  repeat' first | with_reducible rfl | split | simp

@[simp] theorem takeWriteSeq_calm (s : State) : calmPart (takeWriteSeq s) = calmPart s := by
  unfold takeWriteSeq
  repeat' first | with_reducible rfl | split | simp

@[simp] theorem noteDrop_calm (s : State) : calmPart (noteDrop s) = calmPart s := by
  unfold noteDrop
  repeat' first | with_reducible rfl | split | simp

@[simp] theorem dropPending_calm (m : Move) (s : State) : calmPart (dropPending m s) = calmPart s := by
  unfold dropPending
  repeat' first | with_reducible rfl | split | simp

@[simp] theorem makeRoom_calm (level : Nat) (s : State) : calmPart (makeRoom level s).2 = calmPart s := by
  unfold makeRoom
  repeat' first | with_reducible rfl | split | simp

@[simp] theorem addMove_calm (m : Move) (s : State) : calmPart (addMove m s) = calmPart s := by
  unfold addMove
  repeat' first | with_reducible rfl | split | simp

@[simp] theorem makeMove_calm (segment : Nat) (kind : MoveKind) (s : State) :
    calmPart (makeMove segment kind s).2 = calmPart s := by
  have hr := makeRoom_calm (levelOf kind) s
  unfold makeMove
  split
  next s1 h => simpa [h] using hr
  next s1 h =>
    have h1 : calmPart s1 = calmPart s := by simpa [h] using hr
    have hf := flushRequest_calm segment (nextNumber s1) s1
    dsimp only
    split
    · split
      next s2 h2 => simp [h2] at hf; simp [hf, h1]
      next s2 h2 => simp [h2] at hf; simp [hf, h1]
    · simp [h1]

@[simp] theorem raiseMove_calm (m : Move) (kind : MoveKind) (s : State) : calmPart (raiseMove m kind s) = calmPart s := by
  unfold raiseMove
  repeat' first | with_reducible rfl | split | simp

@[simp] theorem requestMove_calm (segment : Nat) (kind : MoveKind) (s : State) : calmPart (requestMove segment kind s).2 = calmPart s := by
  unfold requestMove
  repeat' first | with_reducible rfl | split | simp

@[simp] theorem trimReport_calm (segment : Nat) (s : State) : calmPart (trimReport segment s) = calmPart s := by
  unfold trimReport
  repeat' first | with_reducible rfl | split | simp

@[simp] theorem reportAbandoned_calm (m : Move) (cause : StopCause) (s : State) : calmPart (reportAbandoned m cause s) = calmPart s := by
  unfold reportAbandoned
  repeat' first | with_reducible rfl | split | simp

@[simp] theorem abandon_calm (m : Move) (cause : StopCause) (s : State) : calmPart (abandon m cause s) = calmPart s := by
  unfold abandon
  repeat' first | with_reducible rfl | split | simp

@[simp] theorem endIfDrained_calm (s : State) : calmPart (endIfDrained s) = calmPart s := by
  unfold endIfDrained
  repeat' first | with_reducible rfl | split | simp

@[simp] theorem stopActive_calm (cause : StopCause) (s : State) : calmPart (stopActive cause s) = calmPart s := by
  unfold stopActive
  repeat' first | with_reducible rfl | split | simp

@[simp] theorem stopPending_calm (x0 : List Move) (s : State) : calmPart (stopPending x0 s) = calmPart s := by
  induction x0 generalizing s with
  | nil => rfl
  | cons m ms ih => simp [stopPending, ih]

@[simp] theorem stopStacked_calm (cause : StopCause) (x0 : List Move) (s : State) :
    calmPart (stopStacked cause x0 s) = calmPart s := by
  induction x0 generalizing s with
  | nil => rfl
  | cons m ms ih => simp [stopStacked, ih]

@[simp] theorem stopAll_calm (cause : StopCause) (s : State) : calmPart (stopAll cause s) = calmPart s := by
  unfold stopAll
  repeat' first | with_reducible rfl | split | simp

@[simp] theorem reportFinished_calm (m : Move) (s : State) : calmPart (reportFinished m s) = calmPart s := by
  have hf := flushFinish_calm m.segment m.number m.captured m.overtaken s
  unfold reportFinished
  split
  · split <;> rename_i h <;> simp [h] at hf <;> simp [hf]
  · simp

@[simp] theorem finishTest_calm (s : State) : calmPart (finishTest s) = calmPart s := by
  unfold finishTest
  repeat' first | with_reducible rfl | split | simp

@[simp] theorem holdSlot_calm (slot : Nat) (k : ChunkSlot) (s : State) : calmPart (holdSlot slot k s) = calmPart s := by
  unfold holdSlot
  repeat' first | with_reducible rfl | split | simp

@[simp] theorem startChunk_calm (s : State) : calmPart (startChunk s) = calmPart s := by
  unfold startChunk
  repeat' first | with_reducible rfl | split | simp

@[simp] theorem placeWrite_calm (s : State) : calmPart (placeWrite s) = calmPart s := by
  unfold placeWrite
  repeat' first | with_reducible rfl | split | simp

@[simp] theorem pumpChunks_calm (s : State) : calmPart (pumpChunks s) = calmPart s := by
  unfold pumpChunks
  repeat' first | with_reducible rfl | split | simp

@[simp] theorem unqueue_calm (m : Move) (s : State) : calmPart (unqueue m s) = calmPart s := by
  unfold unqueue
  repeat' first | with_reducible rfl | split | simp

@[simp] theorem resume_calm (m : Move) (s : State) : calmPart (resume m s) = calmPart s := by
  unfold resume
  repeat' first | with_reducible rfl | split | simp

@[simp] theorem activateFlush_calm (m : Move) (e : Entry) (s : State) : calmPart (activateFlush m e s) = calmPart s := by
  unfold activateFlush
  repeat' first | with_reducible rfl | split | simp

@[simp] theorem activatePromotion_calm (m : Move) (s : State) : calmPart (activatePromotion m s) = calmPart s := by
  have hf := createEntry_calm m.segment .inbound 0 (some m.number) (unqueue m s)
  unfold activatePromotion
  split <;> rename_i h <;> simp [h] at hf <;> simp [hf]

@[simp] theorem arbiter_calm (x0 : Nat) (s : State) : calmPart (arbiter x0 s) = calmPart s := by
  induction x0 generalizing s with
  | zero => rfl
  | succ n ih =>
    unfold arbiter
    repeat' first | with_reducible rfl | split | simp [ih]

@[simp] theorem spillBottom_calm (s : State) : calmPart (spillBottom s) = calmPart s := by
  unfold spillBottom
  repeat' first | with_reducible rfl | split | simp

@[simp] theorem suspend_calm (m : Move) (s : State) : calmPart (suspend m s) = calmPart s := by
  unfold suspend
  repeat' first | with_reducible rfl | split | simp

@[simp] theorem preemptTest_calm (s : State) : calmPart (preemptTest s) = calmPart s := by
  unfold preemptTest
  repeat' first | with_reducible rfl | split | simp

@[simp] theorem urgentCheck_calm (s : State) : calmPart (urgentCheck s) = calmPart s := by
  unfold urgentCheck
  repeat' first | with_reducible rfl | split | simp

@[simp] theorem flushCheck_calm (s : State) : calmPart (flushCheck s) = calmPart s := by
  unfold flushCheck
  repeat' first | with_reducible rfl | split | simp

@[simp] theorem engineChecks_calm (s : State) : calmPart (engineChecks s) = calmPart s := by
  unfold engineChecks
  repeat' first | with_reducible rfl | split | simp

@[simp] theorem pauseTest_calm (s : State) : calmPart (pauseTest s) = calmPart s := by
  unfold pauseTest
  repeat' first | with_reducible rfl | split | simp

@[simp] theorem releaseYields_calm (s : State) : calmPart (releaseYields s) = calmPart s := by
  unfold releaseYields
  repeat' first | with_reducible rfl | split | simp

@[simp] theorem engineEvent_calm (s : State) : calmPart (engineEvent s) = calmPart s := by
  unfold engineEvent
  repeat' first | with_reducible rfl | split | simp

@[simp] theorem yieldRequest_calm (segment : Nat) (s : State) : calmPart (yieldRequest segment s) = calmPart s := by
  unfold yieldRequest
  repeat' first | with_reducible rfl | split | simp

@[simp] theorem withdrawYields_calm (s : State) : calmPart (withdrawYields s) = calmPart s := by
  unfold withdrawYields
  repeat' first | with_reducible rfl | split | simp

@[simp] theorem unpause_calm (s : State) : calmPart (unpause s) = calmPart s := by
  unfold unpause
  repeat' first | with_reducible rfl | split | simp

@[simp] theorem chunkDone_calm (c : Nat) (s : State) : calmPart (chunkDone c s) = calmPart s := by
  unfold chunkDone
  repeat' first | with_reducible rfl | split | simp

@[simp] theorem chunkReadOk_calm (m : Move) (c : Nat) (s : State) : calmPart (chunkReadOk m c s) = calmPart s := by
  unfold chunkReadOk
  repeat' first | with_reducible rfl | split | simp

@[simp] theorem chunkWriteOk_calm (m : Move) (c : Nat) (s : State) : calmPart (chunkWriteOk m c s) = calmPart s := by
  unfold chunkWriteOk
  repeat' first | with_reducible rfl | split | simp

@[simp] theorem chunkResult_calm (number : Byte) (c : Nat) (op : Operation) (ok : Bool) (s : State) :
    calmPart (chunkResult number c op ok s) = calmPart s := by
  unfold chunkResult chunkResult.stopActiveOrDrain
  repeat' first | with_reducible rfl | split | simp

@[simp] theorem flushStarts_calm (number : Byte) (s : State) : calmPart (flushStarts number s) = calmPart s := by
  unfold flushStarts
  split
  · rfl
  · rename_i m _
    have hf := flushStart_calm m.segment m.number s
    split
    · split <;> rename_i h <;> simp [h] at hf <;> simp [hf]
    · rfl

@[simp] theorem refuseAdmission_calm (s : State) : calmPart (refuseAdmission s).2 = calmPart s := by
  unfold refuseAdmission
  repeat' first | with_reducible rfl | split | simp

@[simp] theorem admitPromote_calm (segment : Nat) (s : State) : calmPart (admitPromote segment s).2 = calmPart s := by
  unfold admitPromote
  repeat' first | with_reducible rfl | split | simp

@[simp] theorem admitByEviction_calm (r : AdmissionRequest) (s : State) :
    calmPart (admitByEviction r s).2 = calmPart s := by
  unfold admitByEviction
  split
  · simp
  · rename_i v vh _
    have hf := evict_calm v s
    split
    · simp
    · split <;> rename_i h <;> simp [h] at hf <;> simp [hf]

@[simp] theorem admission_calm (r : AdmissionRequest) (s : State) : calmPart (admission r s).2 = calmPart s := by
  unfold admission
  repeat' first | with_reducible rfl | split | simp

@[simp] theorem waitFor_calm (a : Attempt) (w : WaitReason) (s : State) : calmPart (waitFor a w s) = calmPart s := by
  unfold waitFor
  repeat' first | with_reducible rfl | split | simp

@[simp] theorem stopForRoom_calm (a : Attempt) (flash : Bool) (platter : Bool) (b : Blocked) (s : State) : calmPart (stopForRoom a flash platter b s).2 = calmPart s := by
  unfold stopForRoom
  repeat' first | with_reducible rfl | split | simp

@[simp] theorem routeHeat_calm (a : Attempt) (s : State) : calmPart (routeHeat a s).2 = calmPart s := by
  unfold routeHeat
  repeat' first | with_reducible rfl | split | simp

@[simp] theorem issuePiece_calm (a : Attempt) (route : Route) (parts : List OrderPart) (s : State) : calmPart (issuePiece a route parts s) = calmPart s := by
  unfold issuePiece
  repeat' first | with_reducible rfl | split | simp

@[simp] theorem placeOrder_calm (a : Attempt) (i : Nat) (part : OrderPart) (address : Address) (s : State) : calmPart (placeOrder a i part address s) = calmPart s := by
  unfold placeOrder
  repeat' first | with_reducible rfl | split | simp

@[simp] theorem issueOne_calm (a : Attempt) (route : Route) (port : Port) (op : Operation) (address : Address) (s : State) : calmPart (issueOne a route port op address s) = calmPart s := by
  unfold issueOne
  repeat' first | with_reducible rfl | split | simp

@[simp] theorem askAdmission_calm (a : Attempt) (heat : Nat) (s : State) : calmPart (askAdmission a heat s) = calmPart s := by
  unfold askAdmission
  repeat' first | with_reducible rfl | split | simp

@[simp] theorem issuePlatter_calm (a : Attempt) (route : Route) (op : Operation) (s : State) :
    calmPart (issuePlatter a route op s) = calmPart s := by
  unfold issuePlatter
  dsimp only
  split <;> simp

@[simp] theorem tryPlatter_calm (a : Attempt) (route : Route) (op : Operation) (b : Blocked) (s : State) : calmPart (tryPlatter a route op b s).2 = calmPart s := by
  unfold tryPlatter
  repeat' first | with_reducible rfl | split | simp

@[simp] theorem readHit_calm (e : Entry) (s : State) : calmPart (readHit e s) = calmPart s := by
  unfold readHit
  repeat' first | with_reducible rfl | split | simp

@[simp] theorem issueSplit_calm (a : Attempt) (e : Entry) (s : State) : calmPart (issueSplit a e s) = calmPart s := by
  unfold issueSplit
  repeat' first | with_reducible rfl | split | simp

@[simp] theorem tryRead_calm (a : Attempt) (b : Blocked) (s : State) : calmPart (tryRead a b s).2 = calmPart s := by
  unfold tryRead
  repeat' first | with_reducible rfl | split | simp

@[simp] theorem noFrame_calm (a : Attempt) (b : Blocked) (s : State) : calmPart (noFrame a b s).2 = calmPart s := by
  unfold noFrame
  split
  · rfl
  · split
    · simp
    · rename_i v vh _
      have hf := evict_calm v s
      split <;> rename_i h <;> simp [h] at hf <;> simp [hf]

@[simp] theorem tryAbsorb_calm (a : Attempt) (b : Blocked) (s : State) : calmPart (tryAbsorb a b s).2 = calmPart s := by
  have hf := absorbRequest_calm a.piece.segment s
  unfold tryAbsorb
  split
  · simp
  · split <;> rename_i h <;> simp [h] at hf <;> simp [hf]

@[simp] theorem holdByYield_calm (a : Attempt) (s : State) : calmPart (holdByYield a s) = calmPart s := by
  unfold holdByYield
  repeat' first | with_reducible rfl | split | simp

@[simp] theorem tryWrite_calm (a : Attempt) (b : Blocked) (s : State) : calmPart (tryWrite a b s).2 = calmPart s := by
  unfold tryWrite
  repeat' first | with_reducible rfl | split | simp

@[simp] theorem trimToTail_calm (a : Attempt) (s : State) : calmPart (trimToTail a s) = calmPart s := rfl

@[simp] theorem tryTrim_calm (a : Attempt) (b : Blocked) (s : State) : calmPart (tryTrim a b s).2 = calmPart s := by
  unfold tryTrim
  repeat' first | with_reducible rfl | split | simp

@[simp] theorem attemptRoute_calm (a : Attempt) (b : Blocked) (s : State) : calmPart (attemptRoute a b s).2 = calmPart s := by
  unfold attemptRoute
  repeat' first | with_reducible rfl | split | simp

@[simp] theorem attemptPlace_calm (tag : Fin 32) (segment : Nat) (i : Nat) (b : Blocked) (s : State) : calmPart (attemptPlace tag segment i b s).2 = calmPart s := by
  unfold attemptPlace
  repeat' first | with_reducible rfl | split | simp

@[simp] theorem tryPiece_calm (tag : Fin 32) (segment : Nat) (acc : Blocked × State) : calmPart (tryPiece tag segment acc).2 = calmPart acc.2 := by
  unfold tryPiece
  repeat' first | with_reducible rfl | split | simp

@[simp] theorem tryCommand_calm (acc : Blocked × State) (tag : Fin 32) :
    calmPart (tryCommand acc tag).2 = calmPart acc.2 := by
  have h : ∀ (l : List Nat) (a : Blocked × State),
      calmPart (l.foldl (fun acc segment => tryPiece tag segment acc) a).2 = calmPart a.2 := by
    intro l
    induction l with
    | nil => simp
    | cons o os ih => intro t; simp [ih]
  unfold tryCommand
  split <;> simp [h]

@[simp] theorem routingPass_calm (s : State) : calmPart (routingPass s) = calmPart s := by
  have h : ∀ (l : List (Fin 32)) (a : Blocked × State), calmPart (l.foldl tryCommand a).2 = calmPart a.2 := by
    intro l
    induction l with
    | nil => simp
    | cons o os ih => intro t; simp [ih]
  simp [routingPass, h]

end Sys2Proof.Machine
end

