-- ==== Sys2Proof/Laws/Link.lean ====
section
/-! SUPPORT. What the Command Link's rule (R204) and the tests of a control transaction (R188) come to: a record met when the link is
ready takes effect, any other waits, and a transaction that passes the tests is accepted or refused by its own check. -/

namespace Sys2Proof.Machine

/-- A record met when the link is ready takes effect. -/
theorem onLink_ready {s : State} (h : linkReady s) (c : Instr) (f : State → State) : onLink c f s = f s := by
  simp [onLink, linkRoom, h.1, h.2, Config.completionCapacity]

/-- A record met when the link is not ready waits at the end of the untaken records. -/
theorem onLink_waits {s : State} (h : ¬ linkReady s) (c : Instr) (f : State → State) :
    onLink c f s = { s with untaken := s.untaken ++ [c] } := by
  unfold onLink linkRoom
  by_cases hu : s.untaken = []
  · have : ¬ linkSum s < 64 := fun hx => h ⟨hu, hx⟩
    simp [hu, Config.completionCapacity, this]
  · simp [hu]

/-- Test 4 reads the table of R188. -/
theorem modeAllows_iff (k : TxnKind) (m : EngineMode) : modeAllows k m = decide (m ∈ allowedModes k) := by
  cases k <;> cases m <;> rfl

/-- Test 3 keeps back the transactions that R188 lists. -/
theorem keptBackByLong_iff (k : TxnKind) : keptBackByLong k = decide (k ∈ keptBack) := by cases k <;> rfl

/-- Test 2 lets Report Spindle and Read Status through. -/
theorem passesReset_iff (k : TxnKind) : passesReset k = decide (k = .reportSpindle ∨ k = .readStatus) := by
  cases k <;> rfl

/-- A transaction that passes tests 2 to 4 and has no reserved field set is decided by its own check. -/
theorem txnRefusal_passes {k : TxnKind} {h : TxnHead} {s : State} (hp : passesTests k h s)
    (check : State → Option Reason) : txnRefusal k h check s = check s := by
  obtain ⟨h1, h2, h3, h4⟩ := hp
  have hr : (inReset s && !passesReset k) = false := by
    by_cases hx : s.lu.marker = .resetEngine
    · simp [passesReset_iff, h1 hx]
    · simp [inReset, hx]
  have hl : (longInFlight s && keptBackByLong k) = false := by
    by_cases hx : s.lu.marker = .none
    · simp [longInFlight, hx]
    · by_cases hy : s.lu.marker = .resetEngine
      · simp [longInFlight, hy]
      · simp [keptBackByLong_iff, h2 hx hy]
  simp [txnRefusal, modeAllows_iff, h3, hr, hl, h4]

/-- A transaction that passes the tests and its own check is accepted. -/
theorem transaction_accepted {k : TxnKind} {h : TxnHead} {s : State} (hp : mayTake k h s) (c : Instr)
    {check : State → Option Reason} (hc : check s = none) (accept : State → State) :
    transaction c k h check accept s = .next (accept s) := by
  simp [transaction, onLink_ready hp.1, transact, txnRefusal_passes hp.2, hc]

/-- A transaction that passes the tests and fails its own check is refused for the check's reason. -/
theorem transaction_refused {k : TxnKind} {h : TxnHead} {s : State} (hp : mayTake k h s) (c : Instr)
    {check : State → Option Reason} {r : Reason} (hc : check s = some r) (accept : State → State) :
    transaction c k h check accept s = .next (afterRefusal (txnCode k) h.seq r s) := by
  simp [transaction, onLink_ready hp.1, transact, txnRefusal_passes hp.2, hc, refuseTxn, afterRefusal, complete,
    withCompletion]

/-- Every control transaction is one call of `transaction` under its kind and head. -/
theorem exec_transaction {c : Instr} {k : TxnKind} {h : TxnHead} (hc : txnOf c = some (k, h)) (s : State) :
    ∃ (check : State → Option Reason) (accept : State → State), exec c s = transaction c k h check accept s := by
  cases c <;> simp only [txnOf, reduceCtorEq, Option.some.injEq, Prod.mk.injEq] at hc <;> obtain ⟨rfl, rfl⟩ := hc
  all_goals exact ⟨_, _, rfl⟩

/-- What a handed-over completion leaves. -/
theorem complete_eq (r : Completion) (s : State) : complete r s = withCompletion r s := rfl

end Sys2Proof.Machine
end

