-- ==== Sys2Proof/Laws/Load.lean ====
section
/-! SUPPORT. What the end of a command keeps. A completion that is handed over takes the place of its command's slot in the sum of
R204, and the command leaves the Arrival List with its slot: `Keeps` says so of every operation by which pieces and commands
end, and of every operation that leaves the calm part alone. -/

namespace Sys2Proof.Machine

/-- From one state to another the base part is the same, the completions waiting and the occupied slots have the same sum, and
the Arrival List stays the list of the occupied slots. -/
structure Keeps (s t : State) : Prop where
  base : basePart t = basePart s
  load : t.lu.completions.length + occupiedSlots t = s.lu.completions.length + occupiedSlots s
  arrival : arrivalExact s → arrivalExact t

theorem Keeps.refl (s : State) : Keeps s s := ⟨rfl, rfl, id⟩

theorem Keeps.trans {s t u : State} (h : Keeps s t) (k : Keeps t u) : Keeps s u :=
  ⟨k.base.trans h.base, k.load.trans h.load, fun a => k.arrival (h.arrival a)⟩

/-- The occupied slots counted by the tags' occupancy. -/
theorem occupiedSlots_eq (s : State) : occupiedSlots s = (tagsOf s.ct.slots).countP fun x => x.2 := by
  simp [occupiedSlots, tagsOf, List.countP_map, Function.comp_def]

/-- Whether a slot is occupied, by the tags' occupancy. -/
theorem commandOf_isSome_eq (tag : Fin 32) (s : State) :
    (commandOf tag s).isSome = ((tagsOf s.ct.slots)[tag.val]?.any fun x => x.2) := by
  simp [commandOf, tagsOf]

theorem Keeps.of_calm {s t : State} (h : calmPart t = calmPart s) : Keeps s t := by
  have ht : tagsOf t.ct.slots = tagsOf s.ct.slots := congrArg CalmPart.tags h
  have ha : t.ct.arrival = s.ct.arrival := congrArg CalmPart.arrival h
  have hc : t.lu.completions = s.lu.completions := congrArg CalmPart.completions h
  refine ⟨congrArg CalmPart.base h, by simp [hc, occupiedSlots_eq, ht], ?_⟩
  rintro ⟨hn, he⟩
  refine ⟨by rw [ha]; exact hn, fun x => ?_⟩
  rw [ha, he x, commandOf_isSome_eq, commandOf_isSome_eq, ht]

/-- Emptying an occupied slot lowers the count by 1. -/
theorem occupiedSlots_set_none (tag : Fin 32) (s : State) (u : BitVec 16) (h : (commandOf tag s).isSome = true) :
    ((s.ct.slots.set tag ⟨u, none⟩).toList.countP fun t => t.command.isSome) + 1 = occupiedSlots s := by
  have hl : tag.val < s.ct.slots.toList.length := by simp
  have hg : s.ct.slots.toList[tag.val] = s.ct.slots[tag] := by simp
  have hd : s.ct.slots.toList = s.ct.slots.toList.take tag.val ++ s.ct.slots[tag] :: s.ct.slots.toList.drop (tag.val + 1) := by
    rw [← hg, List.getElem_cons_drop, List.take_append_drop]
  have hs : (s.ct.slots.set tag ⟨u, none⟩).toList = s.ct.slots.toList.take tag.val ++ ⟨u, none⟩ :: s.ct.slots.toList.drop (tag.val + 1) := by
    rw [Vector.toList_set, List.set_eq_take_append_cons_drop, if_pos hl]
  have h' : s.ct.slots[tag].command.isSome = true := h
  rw [occupiedSlots, hs]
  conv_rhs => rw [hd]
  simp only [List.countP_append, List.countP_cons, h', Option.isSome_none, Bool.false_eq_true, if_true, if_false]
  omega

/-- A command's completion takes the place of its slot (R95, R204). -/
theorem freeSlot_complete_keeps (r : Completion) (tag : Fin 32) (s : State) (h : (commandOf tag s).isSome = true) :
    Keeps s (complete r (freeSlot tag s)) := by
  refine ⟨rfl, ?_, ?_⟩
  · have := occupiedSlots_set_none tag s s.ct.slots[tag].useNo h
    simp only [complete, freeSlot, occupiedSlots, List.length_append, List.length_singleton] at this ⊢
    omega
  · rintro ⟨hn, he⟩
    refine ⟨hn.filter _, fun x => ?_⟩
    have hx := he x
    simp only [complete, freeSlot, commandOf, List.mem_filter, bne_iff_ne, ne_eq] at hx ⊢
    by_cases hxt : x = tag
    · subst hxt; simp
    · have hv : ¬ tag.val = x.val := fun e => hxt (Fin.ext e.symm)
      simp only [Fin.getElem_fin] at hx ⊢
      rw [Vector.getElem_set_ne (h := hv)]
      simp [hx, hxt]

theorem flushCacheSweep_keeps (ts : List (Fin 32)) (seen : Bool) (s : State) : Keeps s (flushCacheSweep ts seen s) := by
  induction ts generalizing seen s with
  | nil => exact .refl s
  | cons t ts ih =>
    unfold flushCacheSweep
    split
    · exact ih _ _
    · rename_i c hc
      split
      · exact (freeSlot_complete_keeps _ t s (by simp [hc])).trans (ih _ _)
      · exact ih _ _

theorem testFlushCaches_keeps (s : State) : Keeps s (testFlushCaches s) := flushCacheSweep_keeps _ _ _

theorem finishCommand_keeps (tag : Fin 32) (s : State) : Keeps s (finishCommand tag s) := by
  unfold finishCommand
  split
  · exact .refl s
  · rename_i c hc
    dsimp only
    split
    · refine (freeSlot_complete_keeps (.command tag (commandStatus c) (servedFrom c)) tag s (by simp [hc])).trans ?_
      refine Keeps.trans (.of_calm ?_) ((testFlushCaches_keeps _).trans (.of_calm (releaseHolds_calm _)))
      split <;> simp
    · exact .refl s

theorem endPiece_keeps (tag : Fin 32) (segment : Nat) (s : State) : Keeps s (endPiece tag segment s) := by
  unfold endPiece
  split
  · dsimp only
    split
    · exact Keeps.trans (.of_calm (by simp)) (finishCommand_keeps _ _)
    · exact .refl s
  · exact .refl s

theorem partOk_keeps (tag : Fin 32) (segment i : Nat) (port : Port) (s : State) :
    Keeps s (partOk tag segment i port s) :=
  Keeps.trans (.of_calm (by simp)) (endPiece_keeps _ _ _)

theorem partError_keeps (tag : Fin 32) (segment i : Nat) (s : State) : Keeps s (partError tag segment i s) :=
  Keeps.trans (.of_calm (by simp)) (endPiece_keeps _ _ _)

theorem partResult_keeps (tag : Fin 32) (useNo : BitVec 16) (segment i : Nat) (port : Port) (ok : Bool) (s : State) :
    Keeps s (partResult tag useNo segment i port ok s) := by
  unfold partResult
  split
  · split
    · exact partOk_keeps _ _ _ _ _
    · exact partError_keeps _ _ _ _
  · exact .refl s

theorem readFailed_keeps (tag : Fin 32) (useNo : BitVec 16) (segment i f : Nat) (v : SectorSet) (s : State) :
    Keeps s (readFailed tag useNo segment i f v s) := by
  have hr := readError_calm segment f v s
  unfold readFailed
  split <;> rename_i s1 h <;> simp only [h] at hr
  · dsimp only
    refine .of_calm ?_
    split <;> simp [hr]
  · exact Keeps.trans (.of_calm (by simp [hr])) (partResult_keeps _ _ _ _ _ _ _)

theorem pieceResult_keeps (tag : Fin 32) (useNo : BitVec 16) (segment i : Nat) (d : Dispatched) (ok : Bool) (s : State) :
    Keeps s (pieceResult tag useNo segment i d ok s) := by
  unfold pieceResult flashPieceResult
  dsimp only
  repeat' split
  all_goals first
    | exact partResult_keeps _ _ _ _ _ _ _
    | exact readFailed_keeps _ _ _ _ _ _ _
    | exact Keeps.trans (.of_calm (by simp)) (partResult_keeps _ _ _ _ _ _ _)

theorem openHeld_keeps (ts : List (Fin 32)) (s : State) : Keeps s (openHeld ts s) := by
  induction ts generalizing s with
  | nil => exact .refl s
  | cons t ts ih =>
    unfold openHeld
    refine Keeps.trans (.of_calm ?_) (ih _)
    split <;> simp

theorem leaveSaving_keeps (s : State) : Keeps s (leaveSaving s) := by
  unfold leaveSaving
  exact ((openHeld_keeps s.ct.arrival s).trans (testFlushCaches_keeps _)).trans (.of_calm (by simp))

end Sys2Proof.Machine
end

