-- ==== Sys2Proof/Laws/Phases.lean ====
section
/-! SUPPORT. What the Checkpoint Unit's operations do to the Engine Mode, the marker and the sum of R204. An operation either goes on
(`Goes`: mode and marker stay, nothing is answered) or ends (`Ended`: the marker returns to none, the operation is idle, and
one completion is handed over in place of the marker). -/

namespace Sys2Proof.Machine

/-- What a load or an initialization of a component leaves alone, the tables among its exceptions. -/
structure RunPart where
  mode : EngineMode
  marker : LongMarker
  markerSeq : Byte
  frameCount : Nat
  untaken : List Instr
  pending : List Instr
  op : Nat
  completions : List Completion
  tags : List (BitVec 16 × Bool)
  arrival : List (Fin 32)

/-- The run part of a calm part. -/
def CalmPart.run (c : CalmPart) : RunPart :=
  ⟨c.base.mode, c.base.marker, c.base.markerSeq, c.base.frameCount, c.base.untaken, c.base.pending, c.base.op,
    c.completions, c.tags, c.arrival⟩

/-- The run part of a state. -/
def runPart (s : State) : RunPart := (calmPart s).run

theorem runPart_of_calm {s t : State} (h : calmPart t = calmPart s) : runPart t = runPart s := congrArg CalmPart.run h

/-- The completions waiting and the occupied slots. -/
def load (s : State) : Nat := s.lu.completions.length + occupiedSlots s

/-- What every operation below keeps, and how much it adds to the load. -/
structure Settled (n : Nat) (s t : State) : Prop where
  frameCount : t.lu.frameCount = s.lu.frameCount
  untaken : t.untaken = s.untaken
  pending : t.pending = s.pending
  load : load t = load s + n
  arrival : arrivalExact s → arrivalExact t

theorem Settled.of_run {s t : State} (h : runPart t = runPart s) : Settled 0 s t := by
  have ht : tagsOf t.ct.slots = tagsOf s.ct.slots := congrArg RunPart.tags h
  have ha : t.ct.arrival = s.ct.arrival := congrArg RunPart.arrival h
  have hc : t.lu.completions = s.lu.completions := congrArg RunPart.completions h
  refine ⟨congrArg RunPart.frameCount h, congrArg RunPart.untaken h, congrArg RunPart.pending h,
    by simp [Machine.load, hc, occupiedSlots_eq, ht], ?_⟩
  rintro ⟨hn, he⟩
  refine ⟨by rw [ha]; exact hn, fun x => ?_⟩
  rw [ha, he x, commandOf_isSome_eq, commandOf_isSome_eq, ht]

theorem Settled.of_keeps {s t : State} (h : Keeps s t) : Settled 0 s t :=
  ⟨congrArg BasePart.frameCount h.base, congrArg BasePart.untaken h.base, congrArg BasePart.pending h.base, h.load,
    h.arrival⟩

theorem Settled.trans {m n : Nat} {s t u : State} (h : Settled m s t) (k : Settled n t u) : Settled (m + n) s u :=
  ⟨k.frameCount.trans h.frameCount, k.untaken.trans h.untaken, k.pending.trans h.pending,
    by rw [k.load, h.load, Nat.add_assoc], fun a => k.arrival (h.arrival a)⟩

/-- An operation goes on as the given kind: the mode and the marker stay and nothing is answered. -/
structure Goes (k : Nat) (s t : State) : Prop where
  settled : Settled 0 s t
  mode : t.lu.mode = s.lu.mode
  marker : t.lu.marker = s.lu.marker
  op : opKind t.cu.operation = k

/-- A long transaction ends in the given Engine Mode: one completion more, no marker, and an idle Checkpoint Unit. -/
structure Ended (m : EngineMode) (s t : State) : Prop where
  settled : Settled 1 s t
  mode : t.lu.mode = m
  marker : t.lu.marker = .none
  op : opKind t.cu.operation = 0

/-- From a state whose run part is the same, an operation goes on as well. -/
theorem Goes.after {k : Nat} {r s t : State} (h : runPart s = runPart r) (g : Goes k s t) : Goes k r t :=
  ⟨(Settled.of_run h).trans g.settled, g.mode.trans (congrArg RunPart.mode h), g.marker.trans (congrArg RunPart.marker h),
    g.op⟩

/-- From a state whose run part is the same, an operation ends as well. -/
theorem Ended.after {m : EngineMode} {r s t : State} (h : runPart s = runPart r) (e : Ended m s t) : Ended m r t :=
  ⟨by simpa using (Settled.of_run h).trans e.settled, e.mode, e.marker, e.op⟩

/-- From a state that differs in the operation alone. -/
theorem Settled.of_op {s t : State} (h : { runPart t with op := 0 } = { runPart s with op := 0 }) : Settled 0 s t := by
  have e : runPart { t with cu.operation := .idle } = runPart { s with cu.operation := .idle } := h
  have k := Settled.of_run e
  exact ⟨k.frameCount, k.untaken, k.pending, k.load, k.arrival⟩

/-! ## Components -/

@[simp] theorem reportInitialized_run (c : Fin 6) (s : State) : runPart (reportInitialized c s) = runPart s := rfl

@[simp] theorem reportLoaded_run (c : Fin 6) (s : State) : runPart (reportLoaded c s) = runPart s := rfl

@[simp] theorem initComponent_run (c : Fin 6) (s : State) : runPart (initComponent c s) = runPart s := by
  unfold initComponent
  rw [reportInitialized_run]
  split <;> rfl

@[simp] theorem askTrims_run (fs : List Nat) (s : State) : runPart (askTrims fs s) = runPart s := by
  unfold askTrims
  induction fs generalizing s with
  | nil => rfl
  | cons f fs ih => rw [List.foldl_cons, ih]; exact runPart_of_calm (askTrim_calm f s)

@[simp] theorem loadMap_run (m : SavedMap) (w : BitVec 48) (s : State) : runPart (loadMap m w s) = runPart s := by
  unfold loadMap
  exact (askTrims_run _ _).trans rfl

@[simp] theorem reconcileIf_run (v : CompSet) (s : State) : runPart (reconcileIf v s) = runPart s := by
  unfold reconcileIf
  split
  · exact runPart_of_calm (reconcile_calm s)
  · rfl

theorem loadC0_run {data body : List Byte} {s t : State} (h : loadC0 data body s = some t) : runPart t = runPart s := by
  unfold loadC0 at h
  split at h
  · split at h
    · rw [← Option.some.inj h]; exact loadMap_run _ _ _
    · cases h
  · cases h

theorem loadC1_run {data body : List Byte} {s t : State} (h : loadC1 data body s = some t) : runPart t = runPart s := by
  unfold loadC1 at h
  generalize readWays 4096 0 body = cs at h
  dsimp only at h
  split at h
  · rw [← Option.some.inj h]; rfl
  · cases h

theorem loadBody_run {c : Fin 6} {data body : List Byte} {s t : State} (h : loadBody c data body s = some t) :
    runPart t = runPart s := by
  unfold loadBody at h
  split at h
  · exact loadC0_run h
  · exact loadC1_run h
  all_goals rw [← Option.some.inj h]
  · rfl
  · rfl
  · generalize renumberRanks _ = v
    rfl
  · generalize Vector.ofFn _ = v
    rfl

theorem loadRecord_run {c : Fin 6} {data : List Byte} {e : RecordEntry} {s t : State}
    (h : loadRecord c data e s = some t) : runPart t = runPart s :=
  (loadBody_run h).trans rfl

/-! ## Orders of the Checkpoint Unit -/

theorem placeRequest_goes (op : Operation) (first blocks : Nat) (install : Order → CuOperation) (k : Nat)
    (hk : ∀ o, opKind (install o) = k) (s : State) : Goes k s (placeRequest op first blocks install s) := by
  have h : runPart (placeRequest op first blocks install s) = { runPart s with op := k } := by
    unfold placeRequest
    refine (runPart_of_calm (placeCheckpoint_calm _)).trans ?_
    simp only [runPart, calmPart, basePart, CalmPart.run, hk]
  exact ⟨Settled.of_op (by rw [h]), congrArg RunPart.mode h, congrArg RunPart.marker h, congrArg RunPart.op h⟩

/-! ## Save -/

/-- The Engine Mode after a save ends (R186). -/
def modeAfterSave (m : EngineMode) : EngineMode := if m = .saving then .online else m

theorem endSave_ended (status : TxnStatus) (results : TxnResults) (s : State) :
    Ended (modeAfterSave s.lu.mode) s (endSave status results s) := by
  have base : Settled 1 s (completeLong .save status results { s with cu.operation := .idle }) :=
    ⟨rfl, rfl, rfl, by simp [load, completeLong, complete, occupiedSlots]; omega, id⟩
  unfold endSave resumeAfterSave modeAfterSave
  by_cases hm : s.lu.mode = .saving
  · have hm' : (completeLong .save status results { s with cu.operation := .idle }).lu.mode = .saving := hm
    rw [if_pos hm', if_pos hm]
    generalize hs : (completeLong .save status results { s with cu.operation := .idle }) = u at *
    have hop : opKind u.cu.operation = 0 := by rw [← hs]; rfl
    have hmk : u.lu.marker = .none := by rw [← hs]; rfl
    have k : Keeps (unpause { u with lu.mode := .online }) (engineEvent (leaveSaving (unpause { u with lu.mode := .online }))) :=
      (leaveSaving_keeps _).trans (.of_calm (by simp))
    have c : calmPart (unpause { u with lu.mode := .online }) = calmPart { u with lu.mode := .online } := by simp
    have b := k.base.trans (congrArg CalmPart.base c)
    have st : Settled 0 u { u with lu.mode := .online } := ⟨rfl, rfl, rfl, rfl, id⟩
    refine ⟨?_, congrArg BasePart.mode b, (congrArg BasePart.marker b).trans hmk, (congrArg BasePart.op b).trans hop⟩
    have := ((base.trans st).trans (.of_keeps (.of_calm c))).trans (.of_keeps k)
    simpa using this
  · have hm' : (completeLong .save status results { s with cu.operation := .idle }).lu.mode ≠ .saving := hm
    rw [if_neg hm', if_neg hm]
    exact ⟨base, rfl, rfl, rfl⟩

theorem endSave_after {r s : State} (h : runPart s = runPart r) (status : TxnStatus) (results : TxnResults) :
    Ended (modeAfterSave r.lu.mode) r (endSave status results s) := by
  have hm : s.lu.mode = r.lu.mode := congrArg RunPart.mode h
  rw [← hm]
  exact Ended.after h (endSave_ended _ _ _)

theorem saveNext_goes (p : SaveProgress) (s : State) : Goes 2 s (saveNext p s) := by
  unfold saveNext
  split
  · unfold writeRecord
    dsimp only
    refine Goes.after ?_ (placeRequest_goes _ _ _ _ 2 (fun _ => rfl) _)
    rfl
  · unfold writeHeader
    dsimp only
    refine Goes.after ?_ (placeRequest_goes _ _ _ _ 2 (fun _ => rfl) _)
    rfl

theorem planSave_phase (requested : CompSet) (full : Bool) (s : State) :
    Goes 2 s (planSave requested full s) ∨ Ended (modeAfterSave s.lu.mode) s (planSave requested full s) := by
  unfold planSave
  dsimp only
  split
  · exact .inr (endSave_ended _ _ _)
  · split
    · exact .inr (endSave_ended _ _ _)
    · exact .inl (saveNext_goes _ _)

theorem saveResult_phase (p : SaveProgress) (ok : Bool) (s : State) :
    Goes 2 s (saveResult p ok s) ∨ Ended (modeAfterSave s.lu.mode) s (saveResult p ok s) := by
  unfold saveResult
  split
  · right
    unfold saveFails
    split
    · exact endSave_after (by rfl) _ _
    · exact endSave_after (by rfl) _ _
  · split
    · exact .inl (saveNext_goes _ _)
    · right
      unfold saveSucceeds
      exact endSave_after (by rfl) _ _

/-! ## Restore -/

theorem endRestore_ended (status : TxnStatus) (results : TxnResults) (s : State) :
    Ended .offline s (endRestore status results s) :=
  ⟨⟨rfl, rfl, rfl, by simp [load, endRestore, completeLong, complete, occupiedSlots]; omega, id⟩, rfl, rfl, rfl⟩

theorem restoreNext_phase (cs : List (Fin 6)) (p : RestoreProgress) (s : State) :
    Goes 4 s (restoreNext cs p s) ∨ Ended .offline s (restoreNext cs p s) := by
  induction cs generalizing p s with
  | nil => exact .inr ((endRestore_ended _ _ _).after (reconcileIf_run _ _))
  | cons c rest ih =>
    unfold restoreNext
    split
    · exact (ih p (initComponent c s)).imp (.after (initComponent_run c s)) (.after (initComponent_run c s))
    · split
      · exact (ih _ (initComponent c s)).imp (.after (initComponent_run c s)) (.after (initComponent_run c s))
      · exact .inl (placeRequest_goes _ _ _ _ 4 (fun _ => rfl) _)

theorem restoreNext_after {r s : State} (h : runPart s = runPart r) (cs : List (Fin 6)) (p : RestoreProgress) :
    Goes 4 r (restoreNext cs p s) ∨ Ended .offline r (restoreNext cs p s) :=
  (restoreNext_phase cs p s).imp (.after h) (.after h)

theorem headerResult_phase (p : RestoreProgress) (ok : Bool) (s : State) :
    Goes 4 s (headerResult p ok s) ∨ Ended .offline s (headerResult p ok s) := by
  unfold headerResult
  generalize readHeader s.cu.buffer = h
  dsimp only
  split
  · exact .inr (endRestore_ended _ _ _)
  · split
    · exact .inr (endRestore_ended _ _ _)
    · split
      · exact .inr (endRestore_ended _ _ _)
      · exact restoreNext_after ((runPart_of_calm (touch_calm _ _)).trans (by rfl)) _ _

theorem recordResult_phase (c : Fin 6) (p : RestoreProgress) (ok : Bool) (s : State) :
    Goes 4 s (recordResult c p ok s) ∨ Ended .offline s (recordResult c p ok s) := by
  unfold recordResult
  dsimp only
  split
  · rename_i s1 h
    split at h
    · have hr := (reportLoaded_run c s1).trans (loadRecord_run h)
      exact restoreNext_after hr _ _
    · cases h
  · exact restoreNext_after (initComponent_run c s) _ _

theorem restoreResult_phase (p : RestoreProgress) (ok : Bool) (s : State) :
    Goes 4 s (restoreResult p ok s) ∨ Ended .offline s (restoreResult p ok s) := by
  unfold restoreResult
  split
  · exact headerResult_phase _ _ _
  · exact recordResult_phase _ _ _ _

/-! ## Rebuild -/

theorem finishRebuild_ended (p : RebuildProgress) (s : State) : Ended .offline s (finishRebuild p s) := by
  have hr : runPart (reconcile (touch 0 (loadMap (assembledMap p s) (rebuiltSeq p s) s))) = runPart s :=
    (runPart_of_calm (reconcile_calm _)).trans ((runPart_of_calm (touch_calm _ _)).trans (loadMap_run _ _ _))
  refine Ended.after hr ?_
  exact ⟨⟨rfl, rfl, rfl, by simp [load, finishRebuild, completeLong, complete, occupiedSlots]; omega, id⟩, rfl, rfl, rfl⟩

theorem rebuildTest_phase (p : RebuildProgress) (s : State) :
    Goes 6 s (rebuildTest p s) ∨ Ended .offline s (rebuildTest p s) := by
  unfold rebuildTest
  split
  · exact .inr (finishRebuild_ended _ _)
  · exact .inl ⟨⟨rfl, rfl, rfl, rfl, id⟩, rfl, rfl, rfl⟩

theorem classFrame_run (f : Nat) (ok : Bool) (l : FrameLabel) (p : RebuildProgress) (s : State) :
    runPart (classFrame f ok l p s).2 = runPart s := by
  unfold classFrame
  split
  · rfl
  · split
    · exact runPart_of_calm (bump_calm _ _)
    · split
      · rfl
      · unfold classLabel
        dsimp only
        split <;> rfl

theorem labelResult_phase (f : Nat) (ok : Bool) (l : FrameLabel) (s : State) :
    labelResult f ok l s = s ∨ (opKind s.cu.operation = 6
      ∧ (Goes 6 s (labelResult f ok l s) ∨ Ended .offline s (labelResult f ok l s))) := by
  unfold labelResult
  split
  · rename_i p hp
    refine .inr ⟨by rw [hp]; rfl, ?_⟩
    exact (rebuildTest_phase _ _).imp (.after (classFrame_run _ _ _ _ _)) (.after (classFrame_run _ _ _ _ _))
  all_goals exact .inl rfl

theorem startLabelReads_goes (s : State) (h : s.lu.frameCount ≠ 0) : Goes 6 s (startLabelReads s) := by
  have hr : runPart (initComponent 0 { s with cu.rebuildTable := [] }) = runPart s :=
    (initComponent_run _ _).trans rfl
  have hf : (initComponent 0 { s with cu.rebuildTable := [] }).lu.frameCount ≠ 0 := fun e =>
    h ((congrArg RunPart.frameCount hr).symm.trans e)
  unfold startLabelReads
  dsimp only
  rw [if_neg hf]
  refine Goes.after hr ?_
  generalize initComponent 0 { s with cu.rebuildTable := [] } = u
  have k : runPart (placeLabelReads { u with cu.operation := .rebuilding ⟨0, 0, [], [], none⟩ })
      = { runPart u with op := 6 } := (runPart_of_calm (placeLabelReads_calm _)).trans rfl
  exact ⟨Settled.of_op (by rw [k]), congrArg RunPart.mode k, congrArg RunPart.marker k, congrArg RunPart.op k⟩

/-! ## Results -/

/-- What the result of a checkpoint order comes to: nothing, or a step of the save or the restore that is under way. -/
theorem checkpointResult_phase (op : Operation) (ok : Bool) (data : List Byte) (s : State) :
    runPart (checkpointResult op ok data s) = runPart s
      ∨ (opKind s.cu.operation = 2 ∧ (Goes 2 s (checkpointResult op ok data s)
          ∨ Ended (modeAfterSave s.lu.mode) s (checkpointResult op ok data s)))
      ∨ (opKind s.cu.operation = 4 ∧ (Goes 4 s (checkpointResult op ok data s)
          ∨ Ended .offline s (checkpointResult op ok data s))) := by
  unfold checkpointResult
  dsimp only
  generalize hu : (if (ok && op == .read) = true then fillBuffer data s else s) = u
  have hr : runPart u = runPart s := by rw [← hu]; split <;> rfl
  have ho : opKind u.cu.operation = opKind s.cu.operation := congrArg RunPart.op hr
  have hm : u.lu.mode = s.lu.mode := congrArg RunPart.mode hr
  split
  · rename_i p hp
    refine .inr (.inl ⟨by rw [← ho, hp]; rfl, ?_⟩)
    rw [← hm]
    exact (saveResult_phase p ok u).imp (.after hr) (.after hr)
  · rename_i p hp
    refine .inr (.inr ⟨by rw [← ho, hp]; rfl, ?_⟩)
    exact (restoreResult_phase p ok u).imp (.after hr) (.after hr)
  all_goals exact .inl hr

end Sys2Proof.Machine
end

