-- ==== Sys2Proof/Laws/State.lean ====
section
/-! SUPPORT. One lemma per field for each plain update of the state: what it writes, and that it leaves the rest. Each is true by
unfolding, so that no later proof unfolds a record update. -/

namespace Sys2Proof.Machine

/-! ### touch -/

@[simp] theorem touch_lu (c : Fin 6) (s : State) : (touch c s).lu = s.lu := rfl
@[simp] theorem touch_ct (c : Fin 6) (s : State) : (touch c s).ct = s.ct := rfl
@[simp] theorem touch_sm (c : Fin 6) (s : State) : (touch c s).sm = s.sm := rfl
@[simp] theorem touch_hu (c : Fin 6) (s : State) : (touch c s).hu = s.hu := rfl
@[simp] theorem touch_rc (c : Fin 6) (s : State) : (touch c s).rc = s.rc := rfl
@[simp] theorem touch_streams (c : Fin 6) (s : State) : (touch c s).streams = s.streams := rfl
@[simp] theorem touch_params (c : Fin 6) (s : State) : (touch c s).params = s.params := rfl
@[simp] theorem touch_me (c : Fin 6) (s : State) : (touch c s).me = s.me := rfl
@[simp] theorem touch_fps (c : Fin 6) (s : State) : (touch c s).fps = s.fps := rfl
@[simp] theorem touch_held (c : Fin 6) (s : State) : (touch c s).held = s.held := rfl
@[simp] theorem touch_pps (c : Fin 6) (s : State) : (touch c s).pps = s.pps := rfl
@[simp] theorem touch_pm (c : Fin 6) (s : State) : (touch c s).pm = s.pm := rfl
@[simp] theorem touch_cu_inUse (c : Fin 6) (s : State) : (touch c s).cu.inUse = s.cu.inUse ||| compBit c := rfl
@[simp] theorem touch_cu_modified (c : Fin 6) (s : State) : (touch c s).cu.modified = s.cu.modified ||| compBit c := rfl
@[simp] theorem touch_cu_layout (c : Fin 6) (s : State) : (touch c s).cu.layout = s.cu.layout := rfl
@[simp] theorem touch_cu_image (c : Fin 6) (s : State) : (touch c s).cu.image = s.cu.image := rfl
@[simp] theorem touch_cu_operation (c : Fin 6) (s : State) : (touch c s).cu.operation = s.cu.operation := rfl
@[simp] theorem touch_cu_snapshotMarks (c : Fin 6) (s : State) :
    (touch c s).cu.snapshotMarks = if snapshotTaken c s.cu.operation then s.cu.snapshotMarks ||| compBit c else s.cu.snapshotMarks := rfl
@[simp] theorem touch_cu_rebuildTable (c : Fin 6) (s : State) : (touch c s).cu.rebuildTable = s.cu.rebuildTable := rfl
@[simp] theorem touch_cu_buffer (c : Fin 6) (s : State) : (touch c s).cu.buffer = s.cu.buffer := rfl
@[simp] theorem touch_cu_requestNo (c : Fin 6) (s : State) : (touch c s).cu.requestNo = s.cu.requestNo := rfl
@[simp] theorem touch_stats (c : Fin 6) (s : State) : (touch c s).stats = s.stats := rfl
@[simp] theorem touch_timebase (c : Fin 6) (s : State) : (touch c s).timebase = s.timebase := rfl
@[simp] theorem touch_responseWire (c : Fin 6) (s : State) : (touch c s).responseWire = s.responseWire := rfl
@[simp] theorem touch_flashWire (c : Fin 6) (s : State) : (touch c s).flashWire = s.flashWire := rfl
@[simp] theorem touch_platterWire (c : Fin 6) (s : State) : (touch c s).platterWire = s.platterWire := rfl
@[simp] theorem touch_untaken (c : Fin 6) (s : State) : (touch c s).untaken = s.untaken := rfl
@[simp] theorem touch_freeIndex (c : Fin 6) (s : State) : (touch c s).freeIndex = s.freeIndex := rfl
@[simp] theorem touch_pending (c : Fin 6) (s : State) : (touch c s).pending = s.pending := rfl

/-! ### reportInitialized -/

@[simp] theorem reportInitialized_lu (c : Fin 6) (s : State) : (reportInitialized c s).lu = s.lu := rfl
@[simp] theorem reportInitialized_ct (c : Fin 6) (s : State) : (reportInitialized c s).ct = s.ct := rfl
@[simp] theorem reportInitialized_sm (c : Fin 6) (s : State) : (reportInitialized c s).sm = s.sm := rfl
@[simp] theorem reportInitialized_hu (c : Fin 6) (s : State) : (reportInitialized c s).hu = s.hu := rfl
@[simp] theorem reportInitialized_rc (c : Fin 6) (s : State) : (reportInitialized c s).rc = s.rc := rfl
@[simp] theorem reportInitialized_streams (c : Fin 6) (s : State) : (reportInitialized c s).streams = s.streams := rfl
@[simp] theorem reportInitialized_params (c : Fin 6) (s : State) : (reportInitialized c s).params = s.params := rfl
@[simp] theorem reportInitialized_me (c : Fin 6) (s : State) : (reportInitialized c s).me = s.me := rfl
@[simp] theorem reportInitialized_fps (c : Fin 6) (s : State) : (reportInitialized c s).fps = s.fps := rfl
@[simp] theorem reportInitialized_held (c : Fin 6) (s : State) : (reportInitialized c s).held = s.held := rfl
@[simp] theorem reportInitialized_pps (c : Fin 6) (s : State) : (reportInitialized c s).pps = s.pps := rfl
@[simp] theorem reportInitialized_pm (c : Fin 6) (s : State) : (reportInitialized c s).pm = s.pm := rfl
@[simp] theorem reportInitialized_cu_inUse (c : Fin 6) (s : State) :
    (reportInitialized c s).cu.inUse = compMinus s.cu.inUse (compBit c) := rfl
@[simp] theorem reportInitialized_cu_modified (c : Fin 6) (s : State) :
    (reportInitialized c s).cu.modified = s.cu.modified ||| compBit c := rfl
@[simp] theorem reportInitialized_cu_layout (c : Fin 6) (s : State) : (reportInitialized c s).cu.layout = s.cu.layout := rfl
@[simp] theorem reportInitialized_cu_image (c : Fin 6) (s : State) : (reportInitialized c s).cu.image = s.cu.image := rfl
@[simp] theorem reportInitialized_cu_operation (c : Fin 6) (s : State) :
    (reportInitialized c s).cu.operation = s.cu.operation := rfl
@[simp] theorem reportInitialized_cu_snapshotMarks (c : Fin 6) (s : State) :
    (reportInitialized c s).cu.snapshotMarks = s.cu.snapshotMarks := rfl
@[simp] theorem reportInitialized_cu_rebuildTable (c : Fin 6) (s : State) :
    (reportInitialized c s).cu.rebuildTable = s.cu.rebuildTable := rfl
@[simp] theorem reportInitialized_cu_buffer (c : Fin 6) (s : State) : (reportInitialized c s).cu.buffer = s.cu.buffer := rfl
@[simp] theorem reportInitialized_cu_requestNo (c : Fin 6) (s : State) :
    (reportInitialized c s).cu.requestNo = s.cu.requestNo := rfl
@[simp] theorem reportInitialized_stats (c : Fin 6) (s : State) : (reportInitialized c s).stats = s.stats := rfl
@[simp] theorem reportInitialized_timebase (c : Fin 6) (s : State) : (reportInitialized c s).timebase = s.timebase := rfl
@[simp] theorem reportInitialized_responseWire (c : Fin 6) (s : State) :
    (reportInitialized c s).responseWire = s.responseWire := rfl
@[simp] theorem reportInitialized_flashWire (c : Fin 6) (s : State) : (reportInitialized c s).flashWire = s.flashWire := rfl
@[simp] theorem reportInitialized_platterWire (c : Fin 6) (s : State) :
    (reportInitialized c s).platterWire = s.platterWire := rfl
@[simp] theorem reportInitialized_untaken (c : Fin 6) (s : State) : (reportInitialized c s).untaken = s.untaken := rfl
@[simp] theorem reportInitialized_freeIndex (c : Fin 6) (s : State) : (reportInitialized c s).freeIndex = s.freeIndex := rfl
@[simp] theorem reportInitialized_pending (c : Fin 6) (s : State) : (reportInitialized c s).pending = s.pending := rfl

/-! ### reportLoaded -/

@[simp] theorem reportLoaded_lu (c : Fin 6) (s : State) : (reportLoaded c s).lu = s.lu := rfl
@[simp] theorem reportLoaded_ct (c : Fin 6) (s : State) : (reportLoaded c s).ct = s.ct := rfl
@[simp] theorem reportLoaded_sm (c : Fin 6) (s : State) : (reportLoaded c s).sm = s.sm := rfl
@[simp] theorem reportLoaded_hu (c : Fin 6) (s : State) : (reportLoaded c s).hu = s.hu := rfl
@[simp] theorem reportLoaded_rc (c : Fin 6) (s : State) : (reportLoaded c s).rc = s.rc := rfl
@[simp] theorem reportLoaded_streams (c : Fin 6) (s : State) : (reportLoaded c s).streams = s.streams := rfl
@[simp] theorem reportLoaded_params (c : Fin 6) (s : State) : (reportLoaded c s).params = s.params := rfl
@[simp] theorem reportLoaded_me (c : Fin 6) (s : State) : (reportLoaded c s).me = s.me := rfl
@[simp] theorem reportLoaded_fps (c : Fin 6) (s : State) : (reportLoaded c s).fps = s.fps := rfl
@[simp] theorem reportLoaded_held (c : Fin 6) (s : State) : (reportLoaded c s).held = s.held := rfl
@[simp] theorem reportLoaded_pps (c : Fin 6) (s : State) : (reportLoaded c s).pps = s.pps := rfl
@[simp] theorem reportLoaded_pm (c : Fin 6) (s : State) : (reportLoaded c s).pm = s.pm := rfl
@[simp] theorem reportLoaded_cu_inUse (c : Fin 6) (s : State) : (reportLoaded c s).cu.inUse = s.cu.inUse ||| compBit c := rfl
@[simp] theorem reportLoaded_cu_modified (c : Fin 6) (s : State) :
    (reportLoaded c s).cu.modified = compMinus s.cu.modified (compBit c) := rfl
@[simp] theorem reportLoaded_cu_layout (c : Fin 6) (s : State) : (reportLoaded c s).cu.layout = s.cu.layout := rfl
@[simp] theorem reportLoaded_cu_image (c : Fin 6) (s : State) : (reportLoaded c s).cu.image = s.cu.image := rfl
@[simp] theorem reportLoaded_cu_operation (c : Fin 6) (s : State) : (reportLoaded c s).cu.operation = s.cu.operation := rfl
@[simp] theorem reportLoaded_cu_snapshotMarks (c : Fin 6) (s : State) :
    (reportLoaded c s).cu.snapshotMarks = s.cu.snapshotMarks := rfl
@[simp] theorem reportLoaded_cu_rebuildTable (c : Fin 6) (s : State) :
    (reportLoaded c s).cu.rebuildTable = s.cu.rebuildTable := rfl
@[simp] theorem reportLoaded_cu_buffer (c : Fin 6) (s : State) : (reportLoaded c s).cu.buffer = s.cu.buffer := rfl
@[simp] theorem reportLoaded_cu_requestNo (c : Fin 6) (s : State) : (reportLoaded c s).cu.requestNo = s.cu.requestNo := rfl
@[simp] theorem reportLoaded_stats (c : Fin 6) (s : State) : (reportLoaded c s).stats = s.stats := rfl
@[simp] theorem reportLoaded_timebase (c : Fin 6) (s : State) : (reportLoaded c s).timebase = s.timebase := rfl
@[simp] theorem reportLoaded_responseWire (c : Fin 6) (s : State) : (reportLoaded c s).responseWire = s.responseWire := rfl
@[simp] theorem reportLoaded_flashWire (c : Fin 6) (s : State) : (reportLoaded c s).flashWire = s.flashWire := rfl
@[simp] theorem reportLoaded_platterWire (c : Fin 6) (s : State) : (reportLoaded c s).platterWire = s.platterWire := rfl
@[simp] theorem reportLoaded_untaken (c : Fin 6) (s : State) : (reportLoaded c s).untaken = s.untaken := rfl
@[simp] theorem reportLoaded_freeIndex (c : Fin 6) (s : State) : (reportLoaded c s).freeIndex = s.freeIndex := rfl
@[simp] theorem reportLoaded_pending (c : Fin 6) (s : State) : (reportLoaded c s).pending = s.pending := rfl

/-! ### complete -/

@[simp] theorem complete_lu_mode (r : Completion) (s : State) : (complete r s).lu.mode = s.lu.mode := rfl
@[simp] theorem complete_lu_marker (r : Completion) (s : State) : (complete r s).lu.marker = s.lu.marker := rfl
@[simp] theorem complete_lu_markerSeq (r : Completion) (s : State) : (complete r s).lu.markerSeq = s.lu.markerSeq := rfl
@[simp] theorem complete_lu_frameCount (r : Completion) (s : State) : (complete r s).lu.frameCount = s.lu.frameCount := rfl
@[simp] theorem complete_lu_platterSectors (r : Completion) (s : State) :
    (complete r s).lu.platterSectors = s.lu.platterSectors := rfl
@[simp] theorem complete_lu_checkpointBlocks (r : Completion) (s : State) :
    (complete r s).lu.checkpointBlocks = s.lu.checkpointBlocks := rfl
@[simp] theorem complete_lu_completions (r : Completion) (s : State) :
    (complete r s).lu.completions = s.lu.completions ++ [r] := rfl
@[simp] theorem complete_lu_notices (r : Completion) (s : State) : (complete r s).lu.notices = s.lu.notices := rfl
@[simp] theorem complete_lu_deferred (r : Completion) (s : State) : (complete r s).lu.deferred = s.lu.deferred := rfl
@[simp] theorem complete_lu_occurrences (r : Completion) (s : State) :
    (complete r s).lu.occurrences = s.lu.occurrences := rfl
@[simp] theorem complete_ct (r : Completion) (s : State) : (complete r s).ct = s.ct := rfl
@[simp] theorem complete_sm (r : Completion) (s : State) : (complete r s).sm = s.sm := rfl
@[simp] theorem complete_hu (r : Completion) (s : State) : (complete r s).hu = s.hu := rfl
@[simp] theorem complete_rc (r : Completion) (s : State) : (complete r s).rc = s.rc := rfl
@[simp] theorem complete_streams (r : Completion) (s : State) : (complete r s).streams = s.streams := rfl
@[simp] theorem complete_params (r : Completion) (s : State) : (complete r s).params = s.params := rfl
@[simp] theorem complete_me (r : Completion) (s : State) : (complete r s).me = s.me := rfl
@[simp] theorem complete_fps (r : Completion) (s : State) : (complete r s).fps = s.fps := rfl
@[simp] theorem complete_held (r : Completion) (s : State) : (complete r s).held = s.held := rfl
@[simp] theorem complete_pps (r : Completion) (s : State) : (complete r s).pps = s.pps := rfl
@[simp] theorem complete_pm (r : Completion) (s : State) : (complete r s).pm = s.pm := rfl
@[simp] theorem complete_cu (r : Completion) (s : State) : (complete r s).cu = s.cu := rfl
@[simp] theorem complete_stats (r : Completion) (s : State) : (complete r s).stats = s.stats := rfl
@[simp] theorem complete_timebase (r : Completion) (s : State) : (complete r s).timebase = s.timebase := rfl
@[simp] theorem complete_responseWire (r : Completion) (s : State) : (complete r s).responseWire = s.responseWire := rfl
@[simp] theorem complete_flashWire (r : Completion) (s : State) : (complete r s).flashWire = s.flashWire := rfl
@[simp] theorem complete_platterWire (r : Completion) (s : State) : (complete r s).platterWire = s.platterWire := rfl
@[simp] theorem complete_untaken (r : Completion) (s : State) : (complete r s).untaken = s.untaken := rfl
@[simp] theorem complete_freeIndex (r : Completion) (s : State) : (complete r s).freeIndex = s.freeIndex := rfl
@[simp] theorem complete_pending (r : Completion) (s : State) : (complete r s).pending = s.pending := rfl

/-! ### withCompletion -/

@[simp] theorem withCompletion_lu_mode (r : Completion) (s : State) : (withCompletion r s).lu.mode = s.lu.mode := rfl
@[simp] theorem withCompletion_lu_marker (r : Completion) (s : State) : (withCompletion r s).lu.marker = s.lu.marker := rfl
@[simp] theorem withCompletion_lu_markerSeq (r : Completion) (s : State) :
    (withCompletion r s).lu.markerSeq = s.lu.markerSeq := rfl
@[simp] theorem withCompletion_lu_frameCount (r : Completion) (s : State) :
    (withCompletion r s).lu.frameCount = s.lu.frameCount := rfl
@[simp] theorem withCompletion_lu_platterSectors (r : Completion) (s : State) :
    (withCompletion r s).lu.platterSectors = s.lu.platterSectors := rfl
@[simp] theorem withCompletion_lu_checkpointBlocks (r : Completion) (s : State) :
    (withCompletion r s).lu.checkpointBlocks = s.lu.checkpointBlocks := rfl
@[simp] theorem withCompletion_lu_completions (r : Completion) (s : State) :
    (withCompletion r s).lu.completions = s.lu.completions ++ [r] := rfl
@[simp] theorem withCompletion_lu_notices (r : Completion) (s : State) :
    (withCompletion r s).lu.notices = s.lu.notices := rfl
@[simp] theorem withCompletion_lu_deferred (r : Completion) (s : State) :
    (withCompletion r s).lu.deferred = s.lu.deferred := rfl
@[simp] theorem withCompletion_lu_occurrences (r : Completion) (s : State) :
    (withCompletion r s).lu.occurrences = s.lu.occurrences := rfl
@[simp] theorem withCompletion_ct (r : Completion) (s : State) : (withCompletion r s).ct = s.ct := rfl
@[simp] theorem withCompletion_sm (r : Completion) (s : State) : (withCompletion r s).sm = s.sm := rfl
@[simp] theorem withCompletion_hu (r : Completion) (s : State) : (withCompletion r s).hu = s.hu := rfl
@[simp] theorem withCompletion_rc (r : Completion) (s : State) : (withCompletion r s).rc = s.rc := rfl
@[simp] theorem withCompletion_streams (r : Completion) (s : State) : (withCompletion r s).streams = s.streams := rfl
@[simp] theorem withCompletion_params (r : Completion) (s : State) : (withCompletion r s).params = s.params := rfl
@[simp] theorem withCompletion_me (r : Completion) (s : State) : (withCompletion r s).me = s.me := rfl
@[simp] theorem withCompletion_fps (r : Completion) (s : State) : (withCompletion r s).fps = s.fps := rfl
@[simp] theorem withCompletion_held (r : Completion) (s : State) : (withCompletion r s).held = s.held := rfl
@[simp] theorem withCompletion_pps (r : Completion) (s : State) : (withCompletion r s).pps = s.pps := rfl
@[simp] theorem withCompletion_pm (r : Completion) (s : State) : (withCompletion r s).pm = s.pm := rfl
@[simp] theorem withCompletion_cu (r : Completion) (s : State) : (withCompletion r s).cu = s.cu := rfl
@[simp] theorem withCompletion_stats (r : Completion) (s : State) : (withCompletion r s).stats = s.stats := rfl
@[simp] theorem withCompletion_timebase (r : Completion) (s : State) : (withCompletion r s).timebase = s.timebase := rfl
@[simp] theorem withCompletion_responseWire (r : Completion) (s : State) :
    (withCompletion r s).responseWire = s.responseWire := rfl
@[simp] theorem withCompletion_flashWire (r : Completion) (s : State) : (withCompletion r s).flashWire = s.flashWire := rfl
@[simp] theorem withCompletion_platterWire (r : Completion) (s : State) :
    (withCompletion r s).platterWire = s.platterWire := rfl
@[simp] theorem withCompletion_untaken (r : Completion) (s : State) : (withCompletion r s).untaken = s.untaken := rfl
@[simp] theorem withCompletion_freeIndex (r : Completion) (s : State) : (withCompletion r s).freeIndex = s.freeIndex := rfl
@[simp] theorem withCompletion_pending (r : Completion) (s : State) : (withCompletion r s).pending = s.pending := rfl

/-! ### setMarker -/

@[simp] theorem setMarker_lu_mode (m : LongMarker) (h : TxnHead) (s : State) : (setMarker m h s).lu.mode = s.lu.mode := rfl
@[simp] theorem setMarker_lu_marker (m : LongMarker) (h : TxnHead) (s : State) : (setMarker m h s).lu.marker = m := rfl
@[simp] theorem setMarker_lu_markerSeq (m : LongMarker) (h : TxnHead) (s : State) :
    (setMarker m h s).lu.markerSeq = h.seq := rfl
@[simp] theorem setMarker_lu_frameCount (m : LongMarker) (h : TxnHead) (s : State) :
    (setMarker m h s).lu.frameCount = s.lu.frameCount := rfl
@[simp] theorem setMarker_lu_platterSectors (m : LongMarker) (h : TxnHead) (s : State) :
    (setMarker m h s).lu.platterSectors = s.lu.platterSectors := rfl
@[simp] theorem setMarker_lu_checkpointBlocks (m : LongMarker) (h : TxnHead) (s : State) :
    (setMarker m h s).lu.checkpointBlocks = s.lu.checkpointBlocks := rfl
@[simp] theorem setMarker_lu_completions (m : LongMarker) (h : TxnHead) (s : State) :
    (setMarker m h s).lu.completions = s.lu.completions := rfl
@[simp] theorem setMarker_lu_notices (m : LongMarker) (h : TxnHead) (s : State) :
    (setMarker m h s).lu.notices = s.lu.notices := rfl
@[simp] theorem setMarker_lu_deferred (m : LongMarker) (h : TxnHead) (s : State) :
    (setMarker m h s).lu.deferred = s.lu.deferred := rfl
@[simp] theorem setMarker_lu_occurrences (m : LongMarker) (h : TxnHead) (s : State) :
    (setMarker m h s).lu.occurrences = s.lu.occurrences := rfl
@[simp] theorem setMarker_ct (m : LongMarker) (h : TxnHead) (s : State) : (setMarker m h s).ct = s.ct := rfl
@[simp] theorem setMarker_sm (m : LongMarker) (h : TxnHead) (s : State) : (setMarker m h s).sm = s.sm := rfl
@[simp] theorem setMarker_hu (m : LongMarker) (h : TxnHead) (s : State) : (setMarker m h s).hu = s.hu := rfl
@[simp] theorem setMarker_rc (m : LongMarker) (h : TxnHead) (s : State) : (setMarker m h s).rc = s.rc := rfl
@[simp] theorem setMarker_streams (m : LongMarker) (h : TxnHead) (s : State) : (setMarker m h s).streams = s.streams := rfl
@[simp] theorem setMarker_params (m : LongMarker) (h : TxnHead) (s : State) : (setMarker m h s).params = s.params := rfl
@[simp] theorem setMarker_me (m : LongMarker) (h : TxnHead) (s : State) : (setMarker m h s).me = s.me := rfl
@[simp] theorem setMarker_fps (m : LongMarker) (h : TxnHead) (s : State) : (setMarker m h s).fps = s.fps := rfl
@[simp] theorem setMarker_held (m : LongMarker) (h : TxnHead) (s : State) : (setMarker m h s).held = s.held := rfl
@[simp] theorem setMarker_pps (m : LongMarker) (h : TxnHead) (s : State) : (setMarker m h s).pps = s.pps := rfl
@[simp] theorem setMarker_pm (m : LongMarker) (h : TxnHead) (s : State) : (setMarker m h s).pm = s.pm := rfl
@[simp] theorem setMarker_cu (m : LongMarker) (h : TxnHead) (s : State) : (setMarker m h s).cu = s.cu := rfl
@[simp] theorem setMarker_stats (m : LongMarker) (h : TxnHead) (s : State) : (setMarker m h s).stats = s.stats := rfl
@[simp] theorem setMarker_timebase (m : LongMarker) (h : TxnHead) (s : State) :
    (setMarker m h s).timebase = s.timebase := rfl
@[simp] theorem setMarker_responseWire (m : LongMarker) (h : TxnHead) (s : State) :
    (setMarker m h s).responseWire = s.responseWire := rfl
@[simp] theorem setMarker_flashWire (m : LongMarker) (h : TxnHead) (s : State) :
    (setMarker m h s).flashWire = s.flashWire := rfl
@[simp] theorem setMarker_platterWire (m : LongMarker) (h : TxnHead) (s : State) :
    (setMarker m h s).platterWire = s.platterWire := rfl
@[simp] theorem setMarker_untaken (m : LongMarker) (h : TxnHead) (s : State) : (setMarker m h s).untaken = s.untaken := rfl
@[simp] theorem setMarker_freeIndex (m : LongMarker) (h : TxnHead) (s : State) :
    (setMarker m h s).freeIndex = s.freeIndex := rfl
@[simp] theorem setMarker_pending (m : LongMarker) (h : TxnHead) (s : State) : (setMarker m h s).pending = s.pending := rfl

/-! ### clearCount -/

@[simp] theorem clearCount_lu_mode (k : NoticeKind) (s : State) : (clearCount k s).lu.mode = s.lu.mode := rfl
@[simp] theorem clearCount_lu_marker (k : NoticeKind) (s : State) : (clearCount k s).lu.marker = s.lu.marker := rfl
@[simp] theorem clearCount_lu_markerSeq (k : NoticeKind) (s : State) : (clearCount k s).lu.markerSeq = s.lu.markerSeq := rfl
@[simp] theorem clearCount_lu_frameCount (k : NoticeKind) (s : State) :
    (clearCount k s).lu.frameCount = s.lu.frameCount := rfl
@[simp] theorem clearCount_lu_platterSectors (k : NoticeKind) (s : State) :
    (clearCount k s).lu.platterSectors = s.lu.platterSectors := rfl
@[simp] theorem clearCount_lu_checkpointBlocks (k : NoticeKind) (s : State) :
    (clearCount k s).lu.checkpointBlocks = s.lu.checkpointBlocks := rfl
@[simp] theorem clearCount_lu_completions (k : NoticeKind) (s : State) :
    (clearCount k s).lu.completions = s.lu.completions := rfl
@[simp] theorem clearCount_lu_notices (k : NoticeKind) (s : State) : (clearCount k s).lu.notices = s.lu.notices := rfl
@[simp] theorem clearCount_lu_deferred (k : NoticeKind) (s : State) : (clearCount k s).lu.deferred = s.lu.deferred := rfl
@[simp] theorem clearCount_lu_occurrences (k : NoticeKind) (s : State) :
    (clearCount k s).lu.occurrences = s.lu.occurrences.set k.index { s.lu.occurrences[k.index] with count := 0 } := rfl
@[simp] theorem clearCount_ct (k : NoticeKind) (s : State) : (clearCount k s).ct = s.ct := rfl
@[simp] theorem clearCount_sm (k : NoticeKind) (s : State) : (clearCount k s).sm = s.sm := rfl
@[simp] theorem clearCount_hu (k : NoticeKind) (s : State) : (clearCount k s).hu = s.hu := rfl
@[simp] theorem clearCount_rc (k : NoticeKind) (s : State) : (clearCount k s).rc = s.rc := rfl
@[simp] theorem clearCount_streams (k : NoticeKind) (s : State) : (clearCount k s).streams = s.streams := rfl
@[simp] theorem clearCount_params (k : NoticeKind) (s : State) : (clearCount k s).params = s.params := rfl
@[simp] theorem clearCount_me (k : NoticeKind) (s : State) : (clearCount k s).me = s.me := rfl
@[simp] theorem clearCount_fps (k : NoticeKind) (s : State) : (clearCount k s).fps = s.fps := rfl
@[simp] theorem clearCount_held (k : NoticeKind) (s : State) : (clearCount k s).held = s.held := rfl
@[simp] theorem clearCount_pps (k : NoticeKind) (s : State) : (clearCount k s).pps = s.pps := rfl
@[simp] theorem clearCount_pm (k : NoticeKind) (s : State) : (clearCount k s).pm = s.pm := rfl
@[simp] theorem clearCount_cu (k : NoticeKind) (s : State) : (clearCount k s).cu = s.cu := rfl
@[simp] theorem clearCount_stats (k : NoticeKind) (s : State) : (clearCount k s).stats = s.stats := rfl
@[simp] theorem clearCount_timebase (k : NoticeKind) (s : State) : (clearCount k s).timebase = s.timebase := rfl
@[simp] theorem clearCount_responseWire (k : NoticeKind) (s : State) : (clearCount k s).responseWire = s.responseWire := rfl
@[simp] theorem clearCount_flashWire (k : NoticeKind) (s : State) : (clearCount k s).flashWire = s.flashWire := rfl
@[simp] theorem clearCount_platterWire (k : NoticeKind) (s : State) : (clearCount k s).platterWire = s.platterWire := rfl
@[simp] theorem clearCount_untaken (k : NoticeKind) (s : State) : (clearCount k s).untaken = s.untaken := rfl
@[simp] theorem clearCount_freeIndex (k : NoticeKind) (s : State) : (clearCount k s).freeIndex = s.freeIndex := rfl
@[simp] theorem clearCount_pending (k : NoticeKind) (s : State) : (clearCount k s).pending = s.pending := rfl

/-! ### clearSticky -/

@[simp] theorem clearSticky_lu (s : State) : (clearSticky s).lu = s.lu := rfl
@[simp] theorem clearSticky_ct (s : State) : (clearSticky s).ct = s.ct := rfl
@[simp] theorem clearSticky_sm (s : State) : (clearSticky s).sm = s.sm := rfl
@[simp] theorem clearSticky_hu_epoch (s : State) : (clearSticky s).hu.epoch = s.hu.epoch := rfl
@[simp] theorem clearSticky_hu_agingCount (s : State) : (clearSticky s).hu.agingCount = s.hu.agingCount := rfl
@[simp] theorem clearSticky_hu_timeResidue (s : State) : (clearSticky s).hu.timeResidue = s.hu.timeResidue := rfl
@[simp] theorem clearSticky_hu_secondsDue (s : State) : (clearSticky s).hu.secondsDue = s.hu.secondsDue := rfl
@[simp] theorem clearSticky_hu_candidates (s : State) : (clearSticky s).hu.candidates = s.hu.candidates := rfl
@[simp] theorem clearSticky_hu_heatLimit (s : State) : (clearSticky s).hu.heatLimit = false := rfl
@[simp] theorem clearSticky_rc (s : State) : (clearSticky s).rc = s.rc := rfl
@[simp] theorem clearSticky_streams (s : State) : (clearSticky s).streams = s.streams := rfl
@[simp] theorem clearSticky_params (s : State) : (clearSticky s).params = s.params := rfl
@[simp] theorem clearSticky_me_queue (s : State) : (clearSticky s).me.queue = s.me.queue := rfl
@[simp] theorem clearSticky_me_stack (s : State) : (clearSticky s).me.stack = s.me.stack := rfl
@[simp] theorem clearSticky_me_active (s : State) : (clearSticky s).me.active = s.me.active := rfl
@[simp] theorem clearSticky_me_slot0 (s : State) : (clearSticky s).me.slot0 = s.me.slot0 := rfl
@[simp] theorem clearSticky_me_slot1 (s : State) : (clearSticky s).me.slot1 = s.me.slot1 := rfl
@[simp] theorem clearSticky_me_lastNumber (s : State) : (clearSticky s).me.lastNumber = s.me.lastNumber := rfl
@[simp] theorem clearSticky_me_urgent (s : State) : (clearSticky s).me.urgent = s.me.urgent := rfl
@[simp] theorem clearSticky_me_queueDrop (s : State) : (clearSticky s).me.queueDrop = false := rfl
@[simp] theorem clearSticky_me_moveSpill (s : State) : (clearSticky s).me.moveSpill = false := rfl
@[simp] theorem clearSticky_fps (s : State) : (clearSticky s).fps = s.fps := rfl
@[simp] theorem clearSticky_held (s : State) : (clearSticky s).held = s.held := rfl
@[simp] theorem clearSticky_pps (s : State) : (clearSticky s).pps = s.pps := rfl
@[simp] theorem clearSticky_pm (s : State) : (clearSticky s).pm = s.pm := rfl
@[simp] theorem clearSticky_cu (s : State) : (clearSticky s).cu = s.cu := rfl
@[simp] theorem clearSticky_stats (s : State) : (clearSticky s).stats = s.stats := rfl
@[simp] theorem clearSticky_timebase (s : State) : (clearSticky s).timebase = s.timebase := rfl
@[simp] theorem clearSticky_responseWire (s : State) : (clearSticky s).responseWire = s.responseWire := rfl
@[simp] theorem clearSticky_flashWire (s : State) : (clearSticky s).flashWire = s.flashWire := rfl
@[simp] theorem clearSticky_platterWire (s : State) : (clearSticky s).platterWire = s.platterWire := rfl
@[simp] theorem clearSticky_untaken (s : State) : (clearSticky s).untaken = s.untaken := rfl
@[simp] theorem clearSticky_freeIndex (s : State) : (clearSticky s).freeIndex = s.freeIndex := rfl
@[simp] theorem clearSticky_pending (s : State) : (clearSticky s).pending = s.pending := rfl

/-! ### callPass -/

@[simp] theorem callPass_lu (s : State) : (callPass s).lu = s.lu := rfl
@[simp] theorem callPass_ct_slots (s : State) : (callPass s).ct.slots = s.ct.slots := rfl
@[simp] theorem callPass_ct_arrival (s : State) : (callPass s).ct.arrival = s.ct.arrival := rfl
@[simp] theorem callPass_ct_passDue (s : State) : (callPass s).ct.passDue = true := rfl
@[simp] theorem callPass_sm (s : State) : (callPass s).sm = s.sm := rfl
@[simp] theorem callPass_hu (s : State) : (callPass s).hu = s.hu := rfl
@[simp] theorem callPass_rc (s : State) : (callPass s).rc = s.rc := rfl
@[simp] theorem callPass_streams (s : State) : (callPass s).streams = s.streams := rfl
@[simp] theorem callPass_params (s : State) : (callPass s).params = s.params := rfl
@[simp] theorem callPass_me (s : State) : (callPass s).me = s.me := rfl
@[simp] theorem callPass_fps (s : State) : (callPass s).fps = s.fps := rfl
@[simp] theorem callPass_held (s : State) : (callPass s).held = s.held := rfl
@[simp] theorem callPass_pps (s : State) : (callPass s).pps = s.pps := rfl
@[simp] theorem callPass_pm (s : State) : (callPass s).pm = s.pm := rfl
@[simp] theorem callPass_cu (s : State) : (callPass s).cu = s.cu := rfl
@[simp] theorem callPass_stats (s : State) : (callPass s).stats = s.stats := rfl
@[simp] theorem callPass_timebase (s : State) : (callPass s).timebase = s.timebase := rfl
@[simp] theorem callPass_responseWire (s : State) : (callPass s).responseWire = s.responseWire := rfl
@[simp] theorem callPass_flashWire (s : State) : (callPass s).flashWire = s.flashWire := rfl
@[simp] theorem callPass_platterWire (s : State) : (callPass s).platterWire = s.platterWire := rfl
@[simp] theorem callPass_untaken (s : State) : (callPass s).untaken = s.untaken := rfl
@[simp] theorem callPass_freeIndex (s : State) : (callPass s).freeIndex = s.freeIndex := rfl
@[simp] theorem callPass_pending (s : State) : (callPass s).pending = s.pending := rfl

/-! ### setSched on the Flash Port -/

@[simp] theorem setSched_flash_lu (q : Scheduler) (s : State) : (setSched .flash q s).lu = s.lu := rfl
@[simp] theorem setSched_flash_ct (q : Scheduler) (s : State) : (setSched .flash q s).ct = s.ct := rfl
@[simp] theorem setSched_flash_sm (q : Scheduler) (s : State) : (setSched .flash q s).sm = s.sm := rfl
@[simp] theorem setSched_flash_hu (q : Scheduler) (s : State) : (setSched .flash q s).hu = s.hu := rfl
@[simp] theorem setSched_flash_rc (q : Scheduler) (s : State) : (setSched .flash q s).rc = s.rc := rfl
@[simp] theorem setSched_flash_streams (q : Scheduler) (s : State) : (setSched .flash q s).streams = s.streams := rfl
@[simp] theorem setSched_flash_params (q : Scheduler) (s : State) : (setSched .flash q s).params = s.params := rfl
@[simp] theorem setSched_flash_me (q : Scheduler) (s : State) : (setSched .flash q s).me = s.me := rfl
@[simp] theorem setSched_flash_fps (q : Scheduler) (s : State) : (setSched .flash q s).fps = q := rfl
@[simp] theorem setSched_flash_held (q : Scheduler) (s : State) : (setSched .flash q s).held = s.held := rfl
@[simp] theorem setSched_flash_pps (q : Scheduler) (s : State) : (setSched .flash q s).pps = s.pps := rfl
@[simp] theorem setSched_flash_pm (q : Scheduler) (s : State) : (setSched .flash q s).pm = s.pm := rfl
@[simp] theorem setSched_flash_cu (q : Scheduler) (s : State) : (setSched .flash q s).cu = s.cu := rfl
@[simp] theorem setSched_flash_stats (q : Scheduler) (s : State) : (setSched .flash q s).stats = s.stats := rfl
@[simp] theorem setSched_flash_timebase (q : Scheduler) (s : State) : (setSched .flash q s).timebase = s.timebase := rfl
@[simp] theorem setSched_flash_responseWire (q : Scheduler) (s : State) :
    (setSched .flash q s).responseWire = s.responseWire := rfl
@[simp] theorem setSched_flash_flashWire (q : Scheduler) (s : State) : (setSched .flash q s).flashWire = s.flashWire := rfl
@[simp] theorem setSched_flash_platterWire (q : Scheduler) (s : State) :
    (setSched .flash q s).platterWire = s.platterWire := rfl
@[simp] theorem setSched_flash_untaken (q : Scheduler) (s : State) : (setSched .flash q s).untaken = s.untaken := rfl
@[simp] theorem setSched_flash_freeIndex (q : Scheduler) (s : State) : (setSched .flash q s).freeIndex = s.freeIndex := rfl
@[simp] theorem setSched_flash_pending (q : Scheduler) (s : State) : (setSched .flash q s).pending = s.pending := rfl

/-! ### setSched on the Platter Port -/

@[simp] theorem setSched_platter_lu (q : Scheduler) (s : State) : (setSched .platter q s).lu = s.lu := rfl
@[simp] theorem setSched_platter_ct (q : Scheduler) (s : State) : (setSched .platter q s).ct = s.ct := rfl
@[simp] theorem setSched_platter_sm (q : Scheduler) (s : State) : (setSched .platter q s).sm = s.sm := rfl
@[simp] theorem setSched_platter_hu (q : Scheduler) (s : State) : (setSched .platter q s).hu = s.hu := rfl
@[simp] theorem setSched_platter_rc (q : Scheduler) (s : State) : (setSched .platter q s).rc = s.rc := rfl
@[simp] theorem setSched_platter_streams (q : Scheduler) (s : State) : (setSched .platter q s).streams = s.streams := rfl
@[simp] theorem setSched_platter_params (q : Scheduler) (s : State) : (setSched .platter q s).params = s.params := rfl
@[simp] theorem setSched_platter_me (q : Scheduler) (s : State) : (setSched .platter q s).me = s.me := rfl
@[simp] theorem setSched_platter_fps (q : Scheduler) (s : State) : (setSched .platter q s).fps = s.fps := rfl
@[simp] theorem setSched_platter_held (q : Scheduler) (s : State) : (setSched .platter q s).held = s.held := rfl
@[simp] theorem setSched_platter_pps (q : Scheduler) (s : State) : (setSched .platter q s).pps = q := rfl
@[simp] theorem setSched_platter_pm (q : Scheduler) (s : State) : (setSched .platter q s).pm = s.pm := rfl
@[simp] theorem setSched_platter_cu (q : Scheduler) (s : State) : (setSched .platter q s).cu = s.cu := rfl
@[simp] theorem setSched_platter_stats (q : Scheduler) (s : State) : (setSched .platter q s).stats = s.stats := rfl
@[simp] theorem setSched_platter_timebase (q : Scheduler) (s : State) : (setSched .platter q s).timebase = s.timebase := rfl
@[simp] theorem setSched_platter_responseWire (q : Scheduler) (s : State) :
    (setSched .platter q s).responseWire = s.responseWire := rfl
@[simp] theorem setSched_platter_flashWire (q : Scheduler) (s : State) :
    (setSched .platter q s).flashWire = s.flashWire := rfl
@[simp] theorem setSched_platter_platterWire (q : Scheduler) (s : State) :
    (setSched .platter q s).platterWire = s.platterWire := rfl
@[simp] theorem setSched_platter_untaken (q : Scheduler) (s : State) : (setSched .platter q s).untaken = s.untaken := rfl
@[simp] theorem setSched_platter_freeIndex (q : Scheduler) (s : State) :
    (setSched .platter q s).freeIndex = s.freeIndex := rfl
@[simp] theorem setSched_platter_pending (q : Scheduler) (s : State) : (setSched .platter q s).pending = s.pending := rfl

/-! ### occupySlot -/

@[simp] theorem occupySlot_lu (tag : Fin 32) (c : Command) (s : State) : (occupySlot tag c s).lu = s.lu := rfl
@[simp] theorem occupySlot_ct_slots (tag : Fin 32) (c : Command) (s : State) :
    (occupySlot tag c s).ct.slots = s.ct.slots.set tag ⟨s.ct.slots[tag].useNo + 1, some c⟩ := rfl
@[simp] theorem occupySlot_ct_arrival (tag : Fin 32) (c : Command) (s : State) :
    (occupySlot tag c s).ct.arrival = s.ct.arrival ++ [tag] := rfl
@[simp] theorem occupySlot_ct_passDue (tag : Fin 32) (c : Command) (s : State) :
    (occupySlot tag c s).ct.passDue = s.ct.passDue := rfl
@[simp] theorem occupySlot_sm (tag : Fin 32) (c : Command) (s : State) : (occupySlot tag c s).sm = s.sm := rfl
@[simp] theorem occupySlot_hu (tag : Fin 32) (c : Command) (s : State) : (occupySlot tag c s).hu = s.hu := rfl
@[simp] theorem occupySlot_rc (tag : Fin 32) (c : Command) (s : State) : (occupySlot tag c s).rc = s.rc := rfl
@[simp] theorem occupySlot_streams (tag : Fin 32) (c : Command) (s : State) : (occupySlot tag c s).streams = s.streams := rfl
@[simp] theorem occupySlot_params (tag : Fin 32) (c : Command) (s : State) : (occupySlot tag c s).params = s.params := rfl
@[simp] theorem occupySlot_me (tag : Fin 32) (c : Command) (s : State) : (occupySlot tag c s).me = s.me := rfl
@[simp] theorem occupySlot_fps (tag : Fin 32) (c : Command) (s : State) : (occupySlot tag c s).fps = s.fps := rfl
@[simp] theorem occupySlot_held (tag : Fin 32) (c : Command) (s : State) : (occupySlot tag c s).held = s.held := rfl
@[simp] theorem occupySlot_pps (tag : Fin 32) (c : Command) (s : State) : (occupySlot tag c s).pps = s.pps := rfl
@[simp] theorem occupySlot_pm (tag : Fin 32) (c : Command) (s : State) : (occupySlot tag c s).pm = s.pm := rfl
@[simp] theorem occupySlot_cu (tag : Fin 32) (c : Command) (s : State) : (occupySlot tag c s).cu = s.cu := rfl
@[simp] theorem occupySlot_stats (tag : Fin 32) (c : Command) (s : State) : (occupySlot tag c s).stats = s.stats := rfl
@[simp] theorem occupySlot_timebase (tag : Fin 32) (c : Command) (s : State) :
    (occupySlot tag c s).timebase = s.timebase := rfl
@[simp] theorem occupySlot_responseWire (tag : Fin 32) (c : Command) (s : State) :
    (occupySlot tag c s).responseWire = s.responseWire := rfl
@[simp] theorem occupySlot_flashWire (tag : Fin 32) (c : Command) (s : State) :
    (occupySlot tag c s).flashWire = s.flashWire := rfl
@[simp] theorem occupySlot_platterWire (tag : Fin 32) (c : Command) (s : State) :
    (occupySlot tag c s).platterWire = s.platterWire := rfl
@[simp] theorem occupySlot_untaken (tag : Fin 32) (c : Command) (s : State) : (occupySlot tag c s).untaken = s.untaken := rfl
@[simp] theorem occupySlot_freeIndex (tag : Fin 32) (c : Command) (s : State) :
    (occupySlot tag c s).freeIndex = s.freeIndex := rfl
@[simp] theorem occupySlot_pending (tag : Fin 32) (c : Command) (s : State) : (occupySlot tag c s).pending = s.pending := rfl

/-! ### freeSlot -/

@[simp] theorem freeSlot_lu (tag : Fin 32) (s : State) : (freeSlot tag s).lu = s.lu := rfl
@[simp] theorem freeSlot_ct_slots (tag : Fin 32) (s : State) :
    (freeSlot tag s).ct.slots = s.ct.slots.set tag { s.ct.slots[tag] with command := none } := rfl
@[simp] theorem freeSlot_ct_arrival (tag : Fin 32) (s : State) :
    (freeSlot tag s).ct.arrival = s.ct.arrival.filter fun t => t != tag := rfl
@[simp] theorem freeSlot_ct_passDue (tag : Fin 32) (s : State) : (freeSlot tag s).ct.passDue = s.ct.passDue := rfl
@[simp] theorem freeSlot_sm (tag : Fin 32) (s : State) : (freeSlot tag s).sm = s.sm := rfl
@[simp] theorem freeSlot_hu (tag : Fin 32) (s : State) : (freeSlot tag s).hu = s.hu := rfl
@[simp] theorem freeSlot_rc (tag : Fin 32) (s : State) : (freeSlot tag s).rc = s.rc := rfl
@[simp] theorem freeSlot_streams (tag : Fin 32) (s : State) : (freeSlot tag s).streams = s.streams := rfl
@[simp] theorem freeSlot_params (tag : Fin 32) (s : State) : (freeSlot tag s).params = s.params := rfl
@[simp] theorem freeSlot_me (tag : Fin 32) (s : State) : (freeSlot tag s).me = s.me := rfl
@[simp] theorem freeSlot_fps (tag : Fin 32) (s : State) : (freeSlot tag s).fps = s.fps := rfl
@[simp] theorem freeSlot_held (tag : Fin 32) (s : State) : (freeSlot tag s).held = s.held := rfl
@[simp] theorem freeSlot_pps (tag : Fin 32) (s : State) : (freeSlot tag s).pps = s.pps := rfl
@[simp] theorem freeSlot_pm (tag : Fin 32) (s : State) : (freeSlot tag s).pm = s.pm := rfl
@[simp] theorem freeSlot_cu (tag : Fin 32) (s : State) : (freeSlot tag s).cu = s.cu := rfl
@[simp] theorem freeSlot_stats (tag : Fin 32) (s : State) : (freeSlot tag s).stats = s.stats := rfl
@[simp] theorem freeSlot_timebase (tag : Fin 32) (s : State) : (freeSlot tag s).timebase = s.timebase := rfl
@[simp] theorem freeSlot_responseWire (tag : Fin 32) (s : State) : (freeSlot tag s).responseWire = s.responseWire := rfl
@[simp] theorem freeSlot_flashWire (tag : Fin 32) (s : State) : (freeSlot tag s).flashWire = s.flashWire := rfl
@[simp] theorem freeSlot_platterWire (tag : Fin 32) (s : State) : (freeSlot tag s).platterWire = s.platterWire := rfl
@[simp] theorem freeSlot_untaken (tag : Fin 32) (s : State) : (freeSlot tag s).untaken = s.untaken := rfl
@[simp] theorem freeSlot_freeIndex (tag : Fin 32) (s : State) : (freeSlot tag s).freeIndex = s.freeIndex := rfl
@[simp] theorem freeSlot_pending (tag : Fin 32) (s : State) : (freeSlot tag s).pending = s.pending := rfl

/-! ### modifyCommand -/

@[simp] theorem modifyCommand_lu (tag : Fin 32) (f : Command → Command) (s : State) :
    (modifyCommand tag f s).lu = s.lu := rfl
@[simp] theorem modifyCommand_ct_arrival (tag : Fin 32) (f : Command → Command) (s : State) :
    (modifyCommand tag f s).ct.arrival = s.ct.arrival := rfl
@[simp] theorem modifyCommand_ct_passDue (tag : Fin 32) (f : Command → Command) (s : State) :
    (modifyCommand tag f s).ct.passDue = s.ct.passDue := rfl
@[simp] theorem modifyCommand_sm (tag : Fin 32) (f : Command → Command) (s : State) :
    (modifyCommand tag f s).sm = s.sm := rfl
@[simp] theorem modifyCommand_hu (tag : Fin 32) (f : Command → Command) (s : State) :
    (modifyCommand tag f s).hu = s.hu := rfl
@[simp] theorem modifyCommand_rc (tag : Fin 32) (f : Command → Command) (s : State) :
    (modifyCommand tag f s).rc = s.rc := rfl
@[simp] theorem modifyCommand_streams (tag : Fin 32) (f : Command → Command) (s : State) :
    (modifyCommand tag f s).streams = s.streams := rfl
@[simp] theorem modifyCommand_params (tag : Fin 32) (f : Command → Command) (s : State) :
    (modifyCommand tag f s).params = s.params := rfl
@[simp] theorem modifyCommand_me (tag : Fin 32) (f : Command → Command) (s : State) :
    (modifyCommand tag f s).me = s.me := rfl
@[simp] theorem modifyCommand_fps (tag : Fin 32) (f : Command → Command) (s : State) :
    (modifyCommand tag f s).fps = s.fps := rfl
@[simp] theorem modifyCommand_held (tag : Fin 32) (f : Command → Command) (s : State) :
    (modifyCommand tag f s).held = s.held := rfl
@[simp] theorem modifyCommand_pps (tag : Fin 32) (f : Command → Command) (s : State) :
    (modifyCommand tag f s).pps = s.pps := rfl
@[simp] theorem modifyCommand_pm (tag : Fin 32) (f : Command → Command) (s : State) :
    (modifyCommand tag f s).pm = s.pm := rfl
@[simp] theorem modifyCommand_cu (tag : Fin 32) (f : Command → Command) (s : State) :
    (modifyCommand tag f s).cu = s.cu := rfl
@[simp] theorem modifyCommand_stats (tag : Fin 32) (f : Command → Command) (s : State) :
    (modifyCommand tag f s).stats = s.stats := rfl
@[simp] theorem modifyCommand_timebase (tag : Fin 32) (f : Command → Command) (s : State) :
    (modifyCommand tag f s).timebase = s.timebase := rfl
@[simp] theorem modifyCommand_responseWire (tag : Fin 32) (f : Command → Command) (s : State) :
    (modifyCommand tag f s).responseWire = s.responseWire := rfl
@[simp] theorem modifyCommand_flashWire (tag : Fin 32) (f : Command → Command) (s : State) :
    (modifyCommand tag f s).flashWire = s.flashWire := rfl
@[simp] theorem modifyCommand_platterWire (tag : Fin 32) (f : Command → Command) (s : State) :
    (modifyCommand tag f s).platterWire = s.platterWire := rfl
@[simp] theorem modifyCommand_untaken (tag : Fin 32) (f : Command → Command) (s : State) :
    (modifyCommand tag f s).untaken = s.untaken := rfl
@[simp] theorem modifyCommand_freeIndex (tag : Fin 32) (f : Command → Command) (s : State) :
    (modifyCommand tag f s).freeIndex = s.freeIndex := rfl
@[simp] theorem modifyCommand_pending (tag : Fin 32) (f : Command → Command) (s : State) :
    (modifyCommand tag f s).pending = s.pending := rfl

/-! ### mapPieces -/

@[simp] theorem mapPieces_lu (f : Fin 32 → Command → Piece → Piece) (s : State) : (mapPieces f s).lu = s.lu := by simp only [mapPieces]
@[simp] theorem mapPieces_ct_arrival (f : Fin 32 → Command → Piece → Piece) (s : State) :
    (mapPieces f s).ct.arrival = s.ct.arrival := by simp only [mapPieces]
@[simp] theorem mapPieces_ct_passDue (f : Fin 32 → Command → Piece → Piece) (s : State) :
    (mapPieces f s).ct.passDue = s.ct.passDue := by simp only [mapPieces]
@[simp] theorem mapPieces_sm (f : Fin 32 → Command → Piece → Piece) (s : State) : (mapPieces f s).sm = s.sm := by simp only [mapPieces]
@[simp] theorem mapPieces_hu (f : Fin 32 → Command → Piece → Piece) (s : State) : (mapPieces f s).hu = s.hu := by simp only [mapPieces]
@[simp] theorem mapPieces_rc (f : Fin 32 → Command → Piece → Piece) (s : State) : (mapPieces f s).rc = s.rc := by simp only [mapPieces]
@[simp] theorem mapPieces_streams (f : Fin 32 → Command → Piece → Piece) (s : State) :
    (mapPieces f s).streams = s.streams := by simp only [mapPieces]
@[simp] theorem mapPieces_params (f : Fin 32 → Command → Piece → Piece) (s : State) :
    (mapPieces f s).params = s.params := by simp only [mapPieces]
@[simp] theorem mapPieces_me (f : Fin 32 → Command → Piece → Piece) (s : State) : (mapPieces f s).me = s.me := by simp only [mapPieces]
@[simp] theorem mapPieces_fps (f : Fin 32 → Command → Piece → Piece) (s : State) : (mapPieces f s).fps = s.fps := by simp only [mapPieces]
@[simp] theorem mapPieces_held (f : Fin 32 → Command → Piece → Piece) (s : State) : (mapPieces f s).held = s.held := by simp only [mapPieces]
@[simp] theorem mapPieces_pps (f : Fin 32 → Command → Piece → Piece) (s : State) : (mapPieces f s).pps = s.pps := by simp only [mapPieces]
@[simp] theorem mapPieces_pm (f : Fin 32 → Command → Piece → Piece) (s : State) : (mapPieces f s).pm = s.pm := by simp only [mapPieces]
@[simp] theorem mapPieces_cu (f : Fin 32 → Command → Piece → Piece) (s : State) : (mapPieces f s).cu = s.cu := by simp only [mapPieces]
@[simp] theorem mapPieces_stats (f : Fin 32 → Command → Piece → Piece) (s : State) : (mapPieces f s).stats = s.stats := by simp only [mapPieces]
@[simp] theorem mapPieces_timebase (f : Fin 32 → Command → Piece → Piece) (s : State) :
    (mapPieces f s).timebase = s.timebase := by simp only [mapPieces]
@[simp] theorem mapPieces_responseWire (f : Fin 32 → Command → Piece → Piece) (s : State) :
    (mapPieces f s).responseWire = s.responseWire := by simp only [mapPieces]
@[simp] theorem mapPieces_flashWire (f : Fin 32 → Command → Piece → Piece) (s : State) :
    (mapPieces f s).flashWire = s.flashWire := by simp only [mapPieces]
@[simp] theorem mapPieces_platterWire (f : Fin 32 → Command → Piece → Piece) (s : State) :
    (mapPieces f s).platterWire = s.platterWire := by simp only [mapPieces]
@[simp] theorem mapPieces_untaken (f : Fin 32 → Command → Piece → Piece) (s : State) :
    (mapPieces f s).untaken = s.untaken := by simp only [mapPieces]
@[simp] theorem mapPieces_freeIndex (f : Fin 32 → Command → Piece → Piece) (s : State) :
    (mapPieces f s).freeIndex = s.freeIndex := by simp only [mapPieces]
@[simp] theorem mapPieces_pending (f : Fin 32 → Command → Piece → Piece) (s : State) :
    (mapPieces f s).pending = s.pending := by simp only [mapPieces]

/-! ### watchDispatch -/

@[simp] theorem watchDispatch_lu (id : Byte) (s : State) : (watchDispatch id s).lu = s.lu := rfl
@[simp] theorem watchDispatch_ct (id : Byte) (s : State) : (watchDispatch id s).ct = s.ct := rfl
@[simp] theorem watchDispatch_sm (id : Byte) (s : State) : (watchDispatch id s).sm = s.sm := rfl
@[simp] theorem watchDispatch_hu (id : Byte) (s : State) : (watchDispatch id s).hu = s.hu := rfl
@[simp] theorem watchDispatch_rc (id : Byte) (s : State) : (watchDispatch id s).rc = s.rc := rfl
@[simp] theorem watchDispatch_streams (id : Byte) (s : State) : (watchDispatch id s).streams = s.streams := rfl
@[simp] theorem watchDispatch_params (id : Byte) (s : State) : (watchDispatch id s).params = s.params := rfl
@[simp] theorem watchDispatch_me (id : Byte) (s : State) : (watchDispatch id s).me = s.me := rfl
@[simp] theorem watchDispatch_fps (id : Byte) (s : State) : (watchDispatch id s).fps = s.fps := rfl
@[simp] theorem watchDispatch_held (id : Byte) (s : State) : (watchDispatch id s).held = s.held := rfl
@[simp] theorem watchDispatch_pps (id : Byte) (s : State) : (watchDispatch id s).pps = s.pps := rfl
@[simp] theorem watchDispatch_pm_state (id : Byte) (s : State) : (watchDispatch id s).pm.state = s.pm.state := rfl
@[simp] theorem watchDispatch_pm_foregroundWaiting (id : Byte) (s : State) :
    (watchDispatch id s).pm.foregroundWaiting = s.pm.foregroundWaiting := rfl
@[simp] theorem watchDispatch_pm_platterWork (id : Byte) (s : State) :
    (watchDispatch id s).pm.platterWork = s.pm.platterWork := rfl
@[simp] theorem watchDispatch_pm_movesExist (id : Byte) (s : State) :
    (watchDispatch id s).pm.movesExist = s.pm.movesExist := rfl
@[simp] theorem watchDispatch_pm_urgentMove (id : Byte) (s : State) :
    (watchDispatch id s).pm.urgentMove = s.pm.urgentMove := rfl
@[simp] theorem watchDispatch_pm_spinUpRequested (id : Byte) (s : State) :
    (watchDispatch id s).pm.spinUpRequested = s.pm.spinUpRequested := rfl
@[simp] theorem watchDispatch_pm_watch (id : Byte) (s : State) :
    (watchDispatch id s).pm.watch = s.pm.watch ++ [⟨id, false⟩] := rfl
@[simp] theorem watchDispatch_pm_excursion (id : Byte) (s : State) :
    (watchDispatch id s).pm.excursion = s.pm.excursion := rfl
@[simp] theorem watchDispatch_pm_degraded (id : Byte) (s : State) : (watchDispatch id s).pm.degraded = s.pm.degraded := rfl
@[simp] theorem watchDispatch_pm_quietTimer (id : Byte) (s : State) :
    (watchDispatch id s).pm.quietTimer = s.pm.quietTimer := rfl
@[simp] theorem watchDispatch_pm_quietReached (id : Byte) (s : State) :
    (watchDispatch id s).pm.quietReached = s.pm.quietReached := rfl
@[simp] theorem watchDispatch_pm_quietArmed (id : Byte) (s : State) : (watchDispatch id s).pm.quietArmed = true := rfl
@[simp] theorem watchDispatch_cu (id : Byte) (s : State) : (watchDispatch id s).cu = s.cu := rfl
@[simp] theorem watchDispatch_stats (id : Byte) (s : State) : (watchDispatch id s).stats = s.stats := rfl
@[simp] theorem watchDispatch_timebase (id : Byte) (s : State) : (watchDispatch id s).timebase = s.timebase := rfl
@[simp] theorem watchDispatch_responseWire (id : Byte) (s : State) :
    (watchDispatch id s).responseWire = s.responseWire := rfl
@[simp] theorem watchDispatch_flashWire (id : Byte) (s : State) : (watchDispatch id s).flashWire = s.flashWire := rfl
@[simp] theorem watchDispatch_platterWire (id : Byte) (s : State) : (watchDispatch id s).platterWire = s.platterWire := rfl
@[simp] theorem watchDispatch_untaken (id : Byte) (s : State) : (watchDispatch id s).untaken = s.untaken := rfl
@[simp] theorem watchDispatch_freeIndex (id : Byte) (s : State) : (watchDispatch id s).freeIndex = s.freeIndex := rfl
@[simp] theorem watchDispatch_pending (id : Byte) (s : State) : (watchDispatch id s).pending = s.pending := rfl

/-! ### frameDispatched -/

@[simp] theorem frameDispatched_lu (f : Nat) (s : State) : (frameDispatched f s).lu = s.lu := rfl
@[simp] theorem frameDispatched_ct (f : Nat) (s : State) : (frameDispatched f s).ct = s.ct := rfl
@[simp] theorem frameDispatched_sm_entries (f : Nat) (s : State) : (frameDispatched f s).sm.entries = s.sm.entries := rfl
@[simp] theorem frameDispatched_sm_frames (f : Nat) (s : State) :
    (frameDispatched f s).sm.frames = withInFlight f (· + 1) s.sm.frames := rfl
@[simp] theorem frameDispatched_sm_freeList (f : Nat) (s : State) : (frameDispatched f s).sm.freeList = s.sm.freeList := rfl
@[simp] theorem frameDispatched_sm_reclaim (f : Nat) (s : State) : (frameDispatched f s).sm.reclaim = s.sm.reclaim := rfl
@[simp] theorem frameDispatched_sm_dirty (f : Nat) (s : State) : (frameDispatched f s).sm.dirty = s.sm.dirty := rfl
@[simp] theorem frameDispatched_sm_dirtyCount (f : Nat) (s : State) :
    (frameDispatched f s).sm.dirtyCount = s.sm.dirtyCount := rfl
@[simp] theorem frameDispatched_sm_writeSeq (f : Nat) (s : State) : (frameDispatched f s).sm.writeSeq = s.sm.writeSeq := rfl
@[simp] theorem frameDispatched_hu (f : Nat) (s : State) : (frameDispatched f s).hu = s.hu := rfl
@[simp] theorem frameDispatched_rc (f : Nat) (s : State) : (frameDispatched f s).rc = s.rc := rfl
@[simp] theorem frameDispatched_streams (f : Nat) (s : State) : (frameDispatched f s).streams = s.streams := rfl
@[simp] theorem frameDispatched_params (f : Nat) (s : State) : (frameDispatched f s).params = s.params := rfl
@[simp] theorem frameDispatched_me (f : Nat) (s : State) : (frameDispatched f s).me = s.me := rfl
@[simp] theorem frameDispatched_fps (f : Nat) (s : State) : (frameDispatched f s).fps = s.fps := rfl
@[simp] theorem frameDispatched_held (f : Nat) (s : State) : (frameDispatched f s).held = s.held := rfl
@[simp] theorem frameDispatched_pps (f : Nat) (s : State) : (frameDispatched f s).pps = s.pps := rfl
@[simp] theorem frameDispatched_pm (f : Nat) (s : State) : (frameDispatched f s).pm = s.pm := rfl
@[simp] theorem frameDispatched_cu (f : Nat) (s : State) : (frameDispatched f s).cu = s.cu := rfl
@[simp] theorem frameDispatched_stats (f : Nat) (s : State) : (frameDispatched f s).stats = s.stats := rfl
@[simp] theorem frameDispatched_timebase (f : Nat) (s : State) : (frameDispatched f s).timebase = s.timebase := rfl
@[simp] theorem frameDispatched_responseWire (f : Nat) (s : State) :
    (frameDispatched f s).responseWire = s.responseWire := rfl
@[simp] theorem frameDispatched_flashWire (f : Nat) (s : State) : (frameDispatched f s).flashWire = s.flashWire := rfl
@[simp] theorem frameDispatched_platterWire (f : Nat) (s : State) : (frameDispatched f s).platterWire = s.platterWire := rfl
@[simp] theorem frameDispatched_untaken (f : Nat) (s : State) : (frameDispatched f s).untaken = s.untaken := rfl
@[simp] theorem frameDispatched_freeIndex (f : Nat) (s : State) : (frameDispatched f s).freeIndex = s.freeIndex := rfl
@[simp] theorem frameDispatched_pending (f : Nat) (s : State) : (frameDispatched f s).pending = s.pending := rfl

/-! ### fillBuffer -/

@[simp] theorem fillBuffer_lu (data : List Byte) (s : State) : (fillBuffer data s).lu = s.lu := rfl
@[simp] theorem fillBuffer_ct (data : List Byte) (s : State) : (fillBuffer data s).ct = s.ct := rfl
@[simp] theorem fillBuffer_sm (data : List Byte) (s : State) : (fillBuffer data s).sm = s.sm := rfl
@[simp] theorem fillBuffer_hu (data : List Byte) (s : State) : (fillBuffer data s).hu = s.hu := rfl
@[simp] theorem fillBuffer_rc (data : List Byte) (s : State) : (fillBuffer data s).rc = s.rc := rfl
@[simp] theorem fillBuffer_streams (data : List Byte) (s : State) : (fillBuffer data s).streams = s.streams := rfl
@[simp] theorem fillBuffer_params (data : List Byte) (s : State) : (fillBuffer data s).params = s.params := rfl
@[simp] theorem fillBuffer_me (data : List Byte) (s : State) : (fillBuffer data s).me = s.me := rfl
@[simp] theorem fillBuffer_fps (data : List Byte) (s : State) : (fillBuffer data s).fps = s.fps := rfl
@[simp] theorem fillBuffer_held (data : List Byte) (s : State) : (fillBuffer data s).held = s.held := rfl
@[simp] theorem fillBuffer_pps (data : List Byte) (s : State) : (fillBuffer data s).pps = s.pps := rfl
@[simp] theorem fillBuffer_pm (data : List Byte) (s : State) : (fillBuffer data s).pm = s.pm := rfl
@[simp] theorem fillBuffer_cu_inUse (data : List Byte) (s : State) : (fillBuffer data s).cu.inUse = s.cu.inUse := rfl
@[simp] theorem fillBuffer_cu_modified (data : List Byte) (s : State) :
    (fillBuffer data s).cu.modified = s.cu.modified := rfl
@[simp] theorem fillBuffer_cu_layout (data : List Byte) (s : State) : (fillBuffer data s).cu.layout = s.cu.layout := rfl
@[simp] theorem fillBuffer_cu_image (data : List Byte) (s : State) : (fillBuffer data s).cu.image = s.cu.image := rfl
@[simp] theorem fillBuffer_cu_operation (data : List Byte) (s : State) :
    (fillBuffer data s).cu.operation = s.cu.operation := rfl
@[simp] theorem fillBuffer_cu_snapshotMarks (data : List Byte) (s : State) :
    (fillBuffer data s).cu.snapshotMarks = s.cu.snapshotMarks := rfl
@[simp] theorem fillBuffer_cu_rebuildTable (data : List Byte) (s : State) :
    (fillBuffer data s).cu.rebuildTable = s.cu.rebuildTable := rfl
@[simp] theorem fillBuffer_cu_buffer (data : List Byte) (s : State) :
    (fillBuffer data s).cu.buffer = data ++ s.cu.buffer.drop data.length := rfl
@[simp] theorem fillBuffer_cu_requestNo (data : List Byte) (s : State) :
    (fillBuffer data s).cu.requestNo = s.cu.requestNo := rfl
@[simp] theorem fillBuffer_stats (data : List Byte) (s : State) : (fillBuffer data s).stats = s.stats := rfl
@[simp] theorem fillBuffer_timebase (data : List Byte) (s : State) : (fillBuffer data s).timebase = s.timebase := rfl
@[simp] theorem fillBuffer_responseWire (data : List Byte) (s : State) :
    (fillBuffer data s).responseWire = s.responseWire := rfl
@[simp] theorem fillBuffer_flashWire (data : List Byte) (s : State) : (fillBuffer data s).flashWire = s.flashWire := rfl
@[simp] theorem fillBuffer_platterWire (data : List Byte) (s : State) :
    (fillBuffer data s).platterWire = s.platterWire := rfl
@[simp] theorem fillBuffer_untaken (data : List Byte) (s : State) : (fillBuffer data s).untaken = s.untaken := rfl
@[simp] theorem fillBuffer_freeIndex (data : List Byte) (s : State) : (fillBuffer data s).freeIndex = s.freeIndex := rfl
@[simp] theorem fillBuffer_pending (data : List Byte) (s : State) : (fillBuffer data s).pending = s.pending := rfl

/-! ### sendCompletion -/

@[simp] theorem sendCompletion_lu_mode (c : Completion) (rest : List Completion) (s : State) :
    (sendCompletion c rest s).lu.mode = s.lu.mode := rfl
@[simp] theorem sendCompletion_lu_marker (c : Completion) (rest : List Completion) (s : State) :
    (sendCompletion c rest s).lu.marker = s.lu.marker := rfl
@[simp] theorem sendCompletion_lu_markerSeq (c : Completion) (rest : List Completion) (s : State) :
    (sendCompletion c rest s).lu.markerSeq = s.lu.markerSeq := rfl
@[simp] theorem sendCompletion_lu_frameCount (c : Completion) (rest : List Completion) (s : State) :
    (sendCompletion c rest s).lu.frameCount = s.lu.frameCount := rfl
@[simp] theorem sendCompletion_lu_platterSectors (c : Completion) (rest : List Completion) (s : State) :
    (sendCompletion c rest s).lu.platterSectors = s.lu.platterSectors := rfl
@[simp] theorem sendCompletion_lu_checkpointBlocks (c : Completion) (rest : List Completion) (s : State) :
    (sendCompletion c rest s).lu.checkpointBlocks = s.lu.checkpointBlocks := rfl
@[simp] theorem sendCompletion_lu_completions (c : Completion) (rest : List Completion) (s : State) :
    (sendCompletion c rest s).lu.completions = rest := rfl
@[simp] theorem sendCompletion_lu_notices (c : Completion) (rest : List Completion) (s : State) :
    (sendCompletion c rest s).lu.notices = s.lu.notices := rfl
@[simp] theorem sendCompletion_lu_deferred (c : Completion) (rest : List Completion) (s : State) :
    (sendCompletion c rest s).lu.deferred = s.lu.deferred := rfl
@[simp] theorem sendCompletion_lu_occurrences (c : Completion) (rest : List Completion) (s : State) :
    (sendCompletion c rest s).lu.occurrences = s.lu.occurrences := rfl
@[simp] theorem sendCompletion_ct (c : Completion) (rest : List Completion) (s : State) :
    (sendCompletion c rest s).ct = s.ct := rfl
@[simp] theorem sendCompletion_sm (c : Completion) (rest : List Completion) (s : State) :
    (sendCompletion c rest s).sm = s.sm := rfl
@[simp] theorem sendCompletion_hu (c : Completion) (rest : List Completion) (s : State) :
    (sendCompletion c rest s).hu = s.hu := rfl
@[simp] theorem sendCompletion_rc (c : Completion) (rest : List Completion) (s : State) :
    (sendCompletion c rest s).rc = s.rc := rfl
@[simp] theorem sendCompletion_streams (c : Completion) (rest : List Completion) (s : State) :
    (sendCompletion c rest s).streams = s.streams := rfl
@[simp] theorem sendCompletion_params (c : Completion) (rest : List Completion) (s : State) :
    (sendCompletion c rest s).params = s.params := rfl
@[simp] theorem sendCompletion_me (c : Completion) (rest : List Completion) (s : State) :
    (sendCompletion c rest s).me = s.me := rfl
@[simp] theorem sendCompletion_fps (c : Completion) (rest : List Completion) (s : State) :
    (sendCompletion c rest s).fps = s.fps := rfl
@[simp] theorem sendCompletion_held (c : Completion) (rest : List Completion) (s : State) :
    (sendCompletion c rest s).held = s.held := rfl
@[simp] theorem sendCompletion_pps (c : Completion) (rest : List Completion) (s : State) :
    (sendCompletion c rest s).pps = s.pps := rfl
@[simp] theorem sendCompletion_pm (c : Completion) (rest : List Completion) (s : State) :
    (sendCompletion c rest s).pm = s.pm := rfl
@[simp] theorem sendCompletion_cu (c : Completion) (rest : List Completion) (s : State) :
    (sendCompletion c rest s).cu = s.cu := rfl
@[simp] theorem sendCompletion_stats (c : Completion) (rest : List Completion) (s : State) :
    (sendCompletion c rest s).stats = s.stats := rfl
@[simp] theorem sendCompletion_timebase (c : Completion) (rest : List Completion) (s : State) :
    (sendCompletion c rest s).timebase = s.timebase := rfl
@[simp] theorem sendCompletion_responseWire (c : Completion) (rest : List Completion) (s : State) :
    (sendCompletion c rest s).responseWire = completionBytes s.freeIndex c := rfl
@[simp] theorem sendCompletion_flashWire (c : Completion) (rest : List Completion) (s : State) :
    (sendCompletion c rest s).flashWire = s.flashWire := rfl
@[simp] theorem sendCompletion_platterWire (c : Completion) (rest : List Completion) (s : State) :
    (sendCompletion c rest s).platterWire = s.platterWire := rfl
@[simp] theorem sendCompletion_untaken (c : Completion) (rest : List Completion) (s : State) :
    (sendCompletion c rest s).untaken = s.untaken := rfl
@[simp] theorem sendCompletion_freeIndex (c : Completion) (rest : List Completion) (s : State) :
    (sendCompletion c rest s).freeIndex = s.freeIndex + freeValuesOf c := rfl
@[simp] theorem sendCompletion_pending (c : Completion) (rest : List Completion) (s : State) :
    (sendCompletion c rest s).pending = s.pending := rfl

/-! ### bump -/

@[simp] theorem bump_lu (k : Counter) (s : State) : (bump k s).lu = s.lu := by unfold bump; split <;> rfl
@[simp] theorem bump_ct (k : Counter) (s : State) : (bump k s).ct = s.ct := by unfold bump; split <;> rfl
@[simp] theorem bump_sm (k : Counter) (s : State) : (bump k s).sm = s.sm := by unfold bump; split <;> rfl
@[simp] theorem bump_hu (k : Counter) (s : State) : (bump k s).hu = s.hu := by unfold bump; split <;> rfl
@[simp] theorem bump_rc (k : Counter) (s : State) : (bump k s).rc = s.rc := by unfold bump; split <;> rfl
@[simp] theorem bump_streams (k : Counter) (s : State) : (bump k s).streams = s.streams := by unfold bump; split <;> rfl
@[simp] theorem bump_params (k : Counter) (s : State) : (bump k s).params = s.params := by unfold bump; split <;> rfl
@[simp] theorem bump_me (k : Counter) (s : State) : (bump k s).me = s.me := by unfold bump; split <;> rfl
@[simp] theorem bump_fps (k : Counter) (s : State) : (bump k s).fps = s.fps := by unfold bump; split <;> rfl
@[simp] theorem bump_held (k : Counter) (s : State) : (bump k s).held = s.held := by unfold bump; split <;> rfl
@[simp] theorem bump_pps (k : Counter) (s : State) : (bump k s).pps = s.pps := by unfold bump; split <;> rfl
@[simp] theorem bump_pm (k : Counter) (s : State) : (bump k s).pm = s.pm := by unfold bump; split <;> rfl
@[simp] theorem bump_cu_layout (k : Counter) (s : State) :
    (bump k s).cu.layout = s.cu.layout := by unfold bump; split <;> rfl
@[simp] theorem bump_cu_image (k : Counter) (s : State) : (bump k s).cu.image = s.cu.image := by unfold bump; split <;> rfl
@[simp] theorem bump_cu_operation (k : Counter) (s : State) :
    (bump k s).cu.operation = s.cu.operation := by unfold bump; split <;> rfl
@[simp] theorem bump_cu_rebuildTable (k : Counter) (s : State) :
    (bump k s).cu.rebuildTable = s.cu.rebuildTable := by unfold bump; split <;> rfl
@[simp] theorem bump_cu_buffer (k : Counter) (s : State) :
    (bump k s).cu.buffer = s.cu.buffer := by unfold bump; split <;> rfl
@[simp] theorem bump_cu_requestNo (k : Counter) (s : State) :
    (bump k s).cu.requestNo = s.cu.requestNo := by unfold bump; split <;> rfl
@[simp] theorem bump_timebase (k : Counter) (s : State) : (bump k s).timebase = s.timebase := by unfold bump; split <;> rfl
@[simp] theorem bump_responseWire (k : Counter) (s : State) :
    (bump k s).responseWire = s.responseWire := by unfold bump; split <;> rfl
@[simp] theorem bump_flashWire (k : Counter) (s : State) :
    (bump k s).flashWire = s.flashWire := by unfold bump; split <;> rfl
@[simp] theorem bump_platterWire (k : Counter) (s : State) :
    (bump k s).platterWire = s.platterWire := by unfold bump; split <;> rfl
@[simp] theorem bump_untaken (k : Counter) (s : State) : (bump k s).untaken = s.untaken := by unfold bump; split <;> rfl
@[simp] theorem bump_freeIndex (k : Counter) (s : State) :
    (bump k s).freeIndex = s.freeIndex := by unfold bump; split <;> rfl
@[simp] theorem bump_pending (k : Counter) (s : State) : (bump k s).pending = s.pending := by unfold bump; split <;> rfl

/-! ### A port's scheduler -/

@[simp] theorem sched_setSched (p : Port) (q : Scheduler) (s : State) : sched p (setSched p q s) = q := by cases p <;> rfl

/-! ### Sets of components -/

theorem compBit_getLsbD (c d : Fin 6) : (compBit c).getLsbD d.val = decide (d = c) := by revert c d; decide

end Sys2Proof.Machine
end

