-- ==== Sys2Proof/Laws/Reports.lean ====
section
/-! SUPPORT. What the reports to the Platter Monitor, the Link Unit and the Checkpoint Unit leave alone. `workPart` gathers the moves,
the schedulers, the map, the heat, the tables and the configuration; a count, an occurrence, a call for a pass and a report to the
work view leave all of it as it was, and a report to a work view that is true changes nothing at all. -/

namespace Sys2Proof.Machine

/-- What a report to another block does not change. -/
structure WorkPart where
  me : MigrationEngine
  fps : Scheduler
  pps : Scheduler
  held : List HeldRequest
  sm : SegmentMap
  hu : HeatUnit
  rc : RangeComparator
  streams : Vector StreamRec 8
  params : Params
  slots : Vector TagSlot 32
  arrival : List (Fin 32)
  completions : List Completion
  mode : EngineMode
  marker : LongMarker
  frameCount : Nat
  platterSectors : Nat
  platter : PlatterState

/-- The work part of a state. -/
def workPart (s : State) : WorkPart :=
  ⟨s.me, s.fps, s.pps, s.held, s.sm, s.hu, s.rc, s.streams, s.params, s.ct.slots, s.ct.arrival, s.lu.completions, s.lu.mode,
    s.lu.marker, s.lu.frameCount, s.lu.platterSectors, s.pm.state⟩

@[simp] theorem touch_work (c : Fin 6) (s : State) : workPart (touch c s) = workPart s := rfl

@[simp] theorem callPass_work (s : State) : workPart (callPass s) = workPart s := rfl

@[simp] theorem bump_work (k : Counter) (s : State) : workPart (bump k s) = workPart s := by
  unfold bump
  split <;> rfl

@[simp] theorem post_work (k : NoticeKind) (s : State) : workPart (post k s) = workPart s := by
  unfold post
  dsimp only
  split
  · rfl
  · split
    · exact (bump_work _ _).trans rfl
    · split
      · rfl
      · exact (bump_work _ _).trans rfl

@[simp] theorem occur_work (k : NoticeKind) (a : Nat) (s : State) : workPart (occur k a s) = workPart s := by
  unfold occur
  split
  · rfl
  · dsimp only
    split
    · exact (post_work _ _).trans rfl
    · rfl

@[simp] theorem spinUpTest_work (s : State) : workPart (spinUpTest s) = workPart s := by
  unfold spinUpTest
  split
  · exact (occur_work _ _ _).trans rfl
  · rfl

@[simp] theorem quietTest_work (s : State) : workPart (quietTest s) = workPart s := by
  unfold quietTest
  split <;> rfl

@[simp] theorem reportWork_work (s : State) : workPart (reportWork s) = workPart s := by
  unfold reportWork
  split
  · rfl
  · dsimp only
    split
    · refine (quietTest_work _).trans ?_
      split
      · exact (spinUpTest_work _).trans rfl
      · rfl
    · split
      · exact (spinUpTest_work _).trans rfl
      · rfl

@[simp] theorem degradeTest_work (s : State) : workPart (degradeTest s) = workPart s := by
  unfold degradeTest
  split
  · exact (bump_work _ _).trans ((occur_work _ _ _).trans rfl)
  · split
    · exact (occur_work _ _ _).trans rfl
    · rfl

@[simp] theorem watchResult_work (id : Byte) (service : Nat) (s : State) : workPart (watchResult id service s) = workPart s := by
  unfold watchResult
  dsimp only
  split
  · rfl
  · exact (degradeTest_work _).trans rfl

/-- Where the work view is true already, a report to it changes nothing (R151). -/
theorem reportWork_of_true {s : State} (h : workViewTrue s) : reportWork s = s := by
  obtain ⟨h1, h2, h3, h4⟩ := h
  rw [← h1] at h2
  unfold reportWork
  split
  · rfl
  · simp only [← h1, ← h2, ← h3, ← h4, bne_self_eq_false, Bool.or_self, Bool.false_eq_true, if_false]

@[simp] theorem post_pm (k : NoticeKind) (s : State) : (post k s).pm = s.pm := by
  unfold post
  dsimp only
  split
  · rfl
  · split
    · exact bump_pm _ _
    · split
      · rfl
      · exact bump_pm _ _

@[simp] theorem occur_pm (k : NoticeKind) (a : Nat) (s : State) : (occur k a s).pm = s.pm := by
  unfold occur
  split
  · rfl
  · dsimp only
    split
    · exact post_pm _ _
    · rfl

/-- The four facts of the work view (R151). -/
def workFacts (s : State) : Bool × Bool × Bool × Bool :=
  (s.pm.foregroundWaiting, s.pm.platterWork, s.pm.movesExist, s.pm.urgentMove)

@[simp] theorem spinUpTest_facts (s : State) : workFacts (spinUpTest s) = workFacts s := by
  unfold spinUpTest
  split
  · simp [workFacts]
  · rfl

@[simp] theorem quietTest_facts (s : State) : workFacts (quietTest s) = workFacts s := by
  unfold quietTest
  split <;> rfl

/-- After a report outside a Reset Engine the work view is true (R151). -/
theorem reportWork_makes_true {s : State} (h : s.lu.marker ≠ .resetEngine) : workViewTrue (reportWork s) := by
  have hw := reportWork_work s
  have hf : workFacts (reportWork s) = (!s.pps.foreground.isEmpty,
      !s.pps.foreground.isEmpty || !s.pps.background.isEmpty || !s.pps.outstanding.isEmpty, !(allMoves s).isEmpty,
      (allMoves s).any fun m => m.kind == .urgent) := by
    unfold reportWork
    rw [if_neg (by simpa [inReset] using h)]
    dsimp only
    split
    · refine (quietTest_facts _).trans ?_
      split
      · exact (spinUpTest_facts _).trans rfl
      · rfl
    · split
      · exact (spinUpTest_facts _).trans rfl
      · rfl
  have hp : (reportWork s).pps = s.pps := congrArg WorkPart.pps hw
  have hm : (reportWork s).me = s.me := congrArg WorkPart.me hw
  simp only [workFacts, Prod.mk.injEq] at hf
  simp only [workViewTrue, allMoves, hp, hm]
  exact hf

end Sys2Proof.Machine
end

