-- ==== Sys2Proof/Tests/Slice0.lean ====
section
/-! SUPPORT. The model's own tests: the smoke test of `Instr.wellFormed`, records written out byte by byte from chapter 11, the
book's worked figures on single operations, single steps on small states, and for every obligation with hypotheses a concrete
state and operands that meet them (`witness_…`). -/

namespace Sys2Proof.Tests

open Sys2Proof Sys2Proof.Machine

/-! ## Small states -/

/-- A transaction head with no reserved field set. -/
def head : TxnHead := ⟨7, true⟩

/-- A transaction head with a reserved field set. -/
def badHead : TxnHead := ⟨7, false⟩

/-- A state in an Engine Mode with the configuration of a small cache; no frame is listed. -/
def inMode (m : EngineMode) : State :=
  { State.reset with
    lu.mode := m
    lu.frameCount := 1024
    lu.platterSectors := 1048576
    lu.checkpointBlocks := 100
    params.dirtyHigh := 768
    params.dirtyLow := 512
    params.freeReserve := 64
    cu.layout := some .standard }

def offline : State := inMode .offline

def online : State := inMode .online

def saving : State := { inMode .saving with lu.marker := .save }

/-- A state with a long transaction, or a Reset Engine, in flight. -/
def withMarker (m : LongMarker) (s : State) : State := { s with lu.marker := m }

/-- A piece of segment 0 over its first eight sectors. -/
def samplePiece (st : PieceState) : Piece := ⟨0, 0xff, st, none, [], false, false, false⟩

/-- An OPEN command of sectors 0..7. -/
def sampleCommand (k : CommandKind) (noPromote : Bool) (ps : List Piece) : Command :=
  ⟨k, 0, 0, 8, 5, ⟨16, 4, false, noPromote⟩, false, false, ps⟩

/-- The state with a command more in a slot and at the end of the Arrival List. -/
def withCommand (tag : Fin 32) (c : Command) (s : State) : State :=
  { s with
    ct.slots := s.ct.slots.set tag ⟨1, some c⟩
    ct.arrival := s.ct.arrival ++ [tag] }

/-- A descriptor of class 0. -/
def descriptor (k : CommandKind) (tag : Fin 32) (start : BitVec 40) (length : BitVec 16) : Descriptor :=
  ⟨k, tag, 0, start, length, 5⟩

/-- A map entry of segment 0 in frame 0. -/
def sampleEntry (st : EntryState) (marker : Option Byte) : Entry :=
  ⟨0, 0, st, .full, 0, ⟨100, 0, false⟩, 1, 0, marker⟩

/-- The state with one map entry. -/
def withEntry (e : Entry) (s : State) : State := { s with sm.entries := [e], sm.frames := [⟨.bound, 0⟩], sm.reclaim := [0] }

/-- A READ order of the first piece of tag 3 for the platter. -/
def sampleOrder (p : Port) : Order :=
  ⟨p, .foreground, .piece 3 1 0 0, .read, match p with | .flash => .frame 0 | .platter => .platter 0, some 0xff, none,
    .host 5, none⟩

/-- A promotion chunk's READ of the platter. -/
def chunkRead : Order :=
  ⟨.platter, .background, .chunk 0 0, .read, .platter 9, some 0xff, none, .staging 0, some 1⟩

/-- No command holds a piece for a yield request. -/
theorem noYieldHeld_of_slots {s : State}
    (h : ∀ t : Fin 32, ((commandOf t s).all fun c => c.pieces.all fun p => p.state != .held true) = true) :
    noYieldHeld s := by
  intro t c hc p hp
  have := h t
  rw [hc] at this
  simpa using (List.all_eq_true.1 this) p hp

/-! ## Well-formedness -/

theorem test_wellFormed_refuses_known_type : Instr.wellFormed (.discardedRecord 0x01) = false := by decide

theorem test_wellFormed_refuses_link_reset_type : Instr.wellFormed (.discardedRecord 0x02) = false := by decide

theorem test_wellFormed_refuses_known_kind : Instr.wellFormed (.unknownKind 17 head) = false := by decide

theorem test_wellFormed_takes_kind_zero : Instr.wellFormed (.unknownKind 0 head) = true := by decide

/-! ## Records written out from chapter 11 -/

/-- A READ of 96 sectors at LBA 921,664 under tag 9, class 2, buffer handle 5 (11.1; reserved bits set and ignored, R208). -/
theorem test_decode_descriptor :
    decodeLink [0x01, 0xFC, 0xE9, 0x12, 0x40, 0x10, 0x0E, 0, 0, 0xFF, 0x60, 0, 5, 0, 0, 0]
      = some (.commandDescriptor ⟨.read, 9, 2, 921664, 96, 5⟩) := by decide

theorem test_decode_link_reset : decodeLink [0x02] = some .linkReset := by decide

theorem test_decode_unknown_type : decodeLink [0x03, 1, 2] = some (.discardedRecord 0x03) := by decide

/-- Load Range of slot 3: enabled, OUTSIDE, BOOST×2, window 256..511 (11.1). -/
theorem test_decode_load_range :
    decodeLink ([0x08, 3, 0x21, 0, 3, 1, 1, 2] ++ [0, 1, 0, 0, 0, 0, 0, 0] ++ [0xFF, 1, 0, 0, 0, 0, 0, 0]
        ++ [0, 0, 0, 0, 0, 0, 0, 0])
      = some (.loadRange ⟨0x21, true⟩ 3 true 1 2 256 511) := by decide

/-- Set Parameter of id 12 to 400 with a byte of the unused argument area not zero (11.1, R208). -/
theorem test_decode_set_parameter_reserved :
    decodeLink ([0x08, 4, 9, 0, 12, 0, 0, 0] ++ [0x90, 1, 0, 0, 0, 0, 0, 1] ++ [0, 0, 0, 0, 0, 0, 0, 0]
        ++ [0, 0, 0, 0, 0, 0, 0, 0])
      = some (.setParameter ⟨9, false⟩ 12 400) := by decide

/-- A kind code past the table (11.1, R187). -/
theorem test_decode_unknown_kind :
    decodeLink ([0x08, 18, 1] ++ zeros 29) = some (.unknownKind 18 ⟨1, true⟩) := by decide

/-- The bytes of a GOOD completion of tag 9 served from both media (11.2). -/
theorem test_completion_bytes : completionBytes 0 (.command 9 .good .mixed) = [0x11, 9, 0, 3, 0, 0, 0, 0] := by decide

/-- The check value that the algorithm of R209 gives for the nine bytes "123456789". -/
theorem test_crc_check_value :
    crc32 [0x31, 0x32, 0x33, 0x34, 0x35, 0x36, 0x37, 0x38, 0x39] = 0xCBF43926 := by decide +kernel

/-! ## Worked figures of the book -/

/-- The four slots of the worked example of 3.1. -/
def workedRanges : State :=
  { online with
    rc.ranges := (((State.reset.rc.ranges.set 0 ⟨true, 0, 2097151, .inside, .pin⟩).set 3
      ⟨true, 1048576, 1050623, .inside, .bypass⟩).set 5 ⟨true, 2097100, 2200000, .inside, .boost4⟩).set 7
      ⟨true, 0, 4194303, .outside, .boost2⟩ }

/-- The verdicts of the worked example of 3.1, row by row. -/
theorem test_worked_verdicts :
    [100, 8195, 16383, 16384, 32767, 40000].map (fun g => evaluate g workedRanges)
      = [⟨.pin, some 0, 1⟩, ⟨.bypass, some 3, 1⟩, ⟨.pin, some 0, 4⟩, ⟨.boost4, some 5, 4⟩, ⟨.none, none, 1⟩,
        ⟨.boost2, some 7, 2⟩] := by decide

/-- GENTLE takes 65,535 to 0 in 37 steps and not in 36 (R34). -/
theorem test_gentle_reaches_zero : decayHeat .gentle 37 65535 = 0 ∧ decayHeat .gentle 36 65535 ≠ 0 := by decide

/-! ## Single steps -/

/-- A step takes the command at the front of the queue. -/
theorem test_step_takes_front :
    step { online with pending := [.discardedRecord 0x03, .linkReset] }
      = .next { online with pending := [.linkReset] } := by rfl

/-- The value of an outcome, read off a next state. -/
def after {α : Type} (o : Host.Outcome State Fault Refusal) (f : State → α) : Option α :=
  match o with
  | .next s => some (f s)
  | .fault _ => none
  | .refused _ => none

/-- A Load Range past the platter's end is stored clamped to the last LBA and answered DONE_CLAMPED (R190). -/
theorem test_load_range_clamps :
    after (exec (.loadRange head 0 true 0 0 0 1048576) offline) (fun s => (s.rc.ranges[0].stop, s.lu.completions))
      = some (1048575, [.transaction 3 7 .doneClamped .none (.rangeEnd 1048575)]) := by decide

/-- AdmitThreshold 0 is stored as 1 (R191). -/
theorem test_set_parameter_clamps :
    after (exec (.setParameter head 1 0) offline) (fun s => (s.params.admitThreshold, s.lu.completions))
      = some (1, [.transaction 4 7 .doneClamped .none (.value 1)]) := by decide

/-- The worked sequence of 3.4, its fifth row: record 0 loses its train, and its run length is discarded (R65). -/
theorem test_lost_train :
    let s : State := { online with
      streams := ((Vector.replicate 8 StreamRec.initial).set 0 ⟨true, 10512, 512, 0⟩).set 1 ⟨true, 50008, 8, 1⟩ }
    let t := (consultStreams 10000 512 s).2.streams
    t[2] = ⟨true, 10512, 512, 0⟩ ∧ t[1] = ⟨true, 50008, 8, 1⟩ ∧ t[0].valid = false ∧ t[0].run = 0 := by decide

/-- A repeated tag is refused with TAG_IN_USE (R70). -/
theorem test_tag_in_use :
    after (exec (.commandDescriptor (descriptor .read 3 0 8))
        (withCommand 3 (sampleCommand .write false [samplePiece .issued]) online)) (fun s => s.lu.completions)
      = some [.command 3 .tagInUse .none] := by decide

/-- A read of an absent segment on a stopped platter: the pass issues its order all the same (R81, R82). -/
theorem test_routing_pass_absent_read :
    after (exec .routingPass { withCommand 3 (sampleCommand .read true [samplePiece (.waiting .route)]) online with
        ct.passDue := true }) (fun s => (s.pps.foreground.map Order.address, s.fps.foreground.length, s.ct.passDue))
      = some ([.platter 0], 0, false) := by decide +kernel

/-- Report Spindle READY from STOPPED sets the platter state and calls for a routing pass (R149, R150). -/
theorem test_report_spindle :
    after (exec (.reportSpindle head 2) offline) (fun s => (s.pm.state, s.ct.passDue)) = some (.ready, true) := by
  decide +kernel

/-- A millisecond passes in UNCONFIGURED: the timebase alone moves (1.5, R31). -/
theorem test_millisecond_tick :
    after (exec .millisecondTick State.reset) (fun s => (s.timebase, s.hu.timeResidue)) = some (1, 0) := by decide

/-- A completion goes before a notice (R204). -/
theorem test_response_link_send :
    after (exec .responseLinkSend
        { online with lu.completions := [.command 9 .good .flash], lu.notices := [⟨.moveSpill, 1, 0, 0⟩] })
      (fun s => (s.responseWire, s.lu.notices.length)) = some ([0x11, 9, 0, 1, 0, 0, 0, 0], 1) := by decide

/-! ## Witnesses: a state and operands that meet the hypotheses of each obligation -/

/-! ### The machine and its resets -/

theorem witness_IdleStepsAndEventsNotDue :
    (State.reset.pending = [] ∧ State.reset.untaken = []) ∧
    (∃ (s : State) (c : Instr) (rest : List Instr) (t : State), s.pending = [] ∧ s.untaken = c :: rest
      ∧ exec c { s with untaken := [] } = .next t) ∧
    (online.lu.mode ≠ .draining ∧ online.cu.operation = .idle ∧ online.lu.marker ≠ .resetEngine
      ∧ online.hu.secondsDue = 0 ∧ online.ct.passDue = false ∧ online.pm.state ≠ .ready ∧ online.lu.completions = []
      ∧ online.lu.notices = []) ∧
    ({ online with pm.quietArmed := false } : State).pm.quietArmed = false :=
  ⟨by decide, ⟨{ online with untaken := [.discardedRecord 3] }, .discardedRecord 3, [], _, rfl, rfl, rfl⟩, by decide, rfl⟩

theorem witness_ResetEngineTaken : mayTake .resetEngine head online := by
  unfold mayTake linkReady passesTests; decide

theorem witness_ResetEngineEnds :
    let s := withMarker .resetEngine online
    s.lu.marker = .resetEngine ∧ s.fps.outstanding = [] ∧ s.pps.outstanding = [] := by decide

/-- A record behind an untaken one, and one met with the sum of R204 at 64. -/
theorem witness_RecordsWaitUntaken :
    (encodeLink (.goOnline head)).isSome = true ∧ Instr.goOnline head ≠ .linkReset
      ∧ ¬ linkReady { online with untaken := [.linkReset] }
      ∧ ¬ linkReady { online with lu.completions := List.replicate 64 (.command 0 .good .none) }
      ∧ ({ online with untaken := [.linkReset] } : State).untaken ≠ [] := by
  unfold linkReady; decide

/-- The link is ready with 63 completions waiting too. -/
theorem witness_UnknownRecords : linkReady online ∧ linkReady State.reset ∧ linkReady saving
    ∧ linkReady { online with lu.completions := List.replicate 63 (.command 0 .good .none) } := by
  unfold linkReady; decide

/-! ### Descriptors and the Link Reset -/

theorem witness_DescriptorRefusedNotOnline :
    linkReady offline ∧ offline.lu.mode ≠ .online ∧ offline.lu.mode ≠ .saving
      ∧ linkReady (withMarker .resetEngine online) ∧ (withMarker .resetEngine online).lu.marker = .resetEngine := by
  unfold linkReady; decide

/-- The clauses of the three tests: a tag in use; a length 0 and a length 8193; a last LBA one beyond the platter; a FLUSH_CACHE;
and the longest command that ends at the platter's last LBA. -/
theorem witness_DescriptorTestsInOrder :
    linkReady online ∧ online.lu.marker ≠ .resetEngine ∧ online.lu.mode = .online ∧ saving.lu.mode = .saving
      ∧ (commandOf 3 (withCommand 3 (sampleCommand .read false []) online)).isSome = true ∧ commandOf 3 online = none
      ∧ (descriptor .read 3 0 0).length.toNat = 0 ∧ 8192 < (descriptor .read 3 0 8193).length.toNat
      ∧ online.lu.platterSectors < (descriptor .read 3 1040385 8192).start.toNat + (8192#16).toNat
      ∧ (descriptor .read 3 1040384 8192).start.toNat + (8192#16).toNat ≤ online.lu.platterSectors
      ∧ (descriptor .flushCache 3 0 0).kind = .flushCache := by
  unfold linkReady; decide

theorem witness_DescriptorTakenOnline :
    let s := withCommand 4 (sampleCommand .write false [samplePiece (.waiting .route)]) online
    let d := descriptor .write 3 4 200
    linkReady s ∧ arrivalExact s ∧ s.lu.marker ≠ .resetEngine ∧ s.lu.mode = .online ∧ commandOf d.tag s = none
      ∧ d.kind ≠ .flushCache ∧ d.length.toNat ≠ 0 ∧ d.length.toNat ≤ 8192
      ∧ d.start.toNat + d.length.toNat ≤ s.lu.platterSectors := by
  unfold linkReady arrivalExact; decide

theorem witness_DescriptorHeldInSaving :
    let d := descriptor .write 3 4 200
    linkReady saving ∧ saving.lu.marker ≠ .resetEngine ∧ saving.lu.mode = .saving ∧ commandOf d.tag saving = none
      ∧ d.length.toNat ≠ 0 ∧ d.length.toNat ≤ 8192 ∧ d.start.toNat + d.length.toNat ≤ saving.lu.platterSectors := by
  unfold linkReady; decide

/-- A FLUSH_CACHE with a READ before it, and one with a WRITE that stands behind the READ in the Arrival List. -/
theorem witness_FlushCacheWaitsForWrites :
    let s := withCommand 4 (sampleCommand .read false [samplePiece .issued]) online
    let u := withCommand 5 (sampleCommand .write false [samplePiece .issued]) s
    (linkReady s ∧ arrivalExact s ∧ s.lu.mode = .online ∧ s.lu.marker ≠ .resetEngine ∧ commandOf 3 s = none
      ∧ s.ct.arrival = [4] ∧ commandOf 4 s = some (sampleCommand .read false [samplePiece .issued])) ∧
    (linkReady u ∧ arrivalExact u ∧ u.lu.mode = .online ∧ u.lu.marker ≠ .resetEngine ∧ commandOf 3 u = none
      ∧ u.ct.arrival = [4] ++ 5 :: [] ∧ commandOf 4 u = some (sampleCommand .read false [samplePiece .issued])
      ∧ commandOf 5 u = some (sampleCommand .write false [samplePiece .issued])) := by
  unfold linkReady arrivalExact; decide

theorem witness_LinkResetFreesSlots : online.untaken = [] ∧ online.params.streamClearMask.getLsbD 3 = true := by decide

/-! ### Transactions -/

/-- A Reset Engine in flight, a long transaction in flight, a wrong mode, and a reserved field that is set. -/
theorem witness_TransactionTestsInOrder :
    txnOf (.goOnline badHead) = some (.goOnline, badHead) ∧ linkReady online
      ∧ (withMarker .resetEngine online).lu.marker = .resetEngine ∧ linkReady (withMarker .resetEngine online)
      ∧ saving.lu.marker ≠ .none ∧ saving.lu.marker ≠ .resetEngine ∧ TxnKind.goOnline ∈ keptBack
      ∧ online.lu.marker = .none ∧ online.lu.mode ∉ allowedModes .goOnline
      ∧ offline.lu.marker = .none ∧ offline.lu.mode ∈ allowedModes .goOnline ∧ badHead.reservedClear = false := by
  unfold linkReady; decide

/-- Configure with a frame BOUND, with a value out of its range, and with each value at the ends of its range. -/
theorem witness_Configure :
    mayTake .configure head offline ∧ offline.lu.mode = .offline
      ∧ 0 < framesIn .bound (withEntry (sampleEntry .clean none) offline)
      ∧ framesIn .bound offline + framesIn .trimming offline = 0
      ∧ ¬ 2 ^ 20 ≤ (1048575#64).toNat ∧ 2 ^ 20 ≤ (1048576#64).toNat
      ∧ (1099511627775#64).toNat ≤ 2 ^ 40 - 1 ∧ ¬ (1099511627776#64).toNat ≤ 2 ^ 40 - 1
      ∧ 1 ≤ (1#32).toNat ∧ (1048576#32).toNat ≤ 1048576 := by
  unfold mayTake linkReady passesTests; decide

/-- Load Class of classes 15 and 16; Load Range of slots 15 and 16, of a choice past the last, of a window that ends before it
starts, and of one that starts at the platter's last LBA. -/
theorem witness_LoadClassAndLoadRange :
    mayTake .loadClass head offline ∧ mayTake .loadRange head offline ∧ 16 ≤ (16#8).toNat ∧ (15#8).toNat < 16
      ∧ 2 ≤ (2#8).toNat ∧ 4 ≤ (4#8).toNat ∧ (5#64).toNat < (6#64).toNat
      ∧ offline.lu.platterSectors ≤ (1048576#64).toNat ∧ (1048575#64).toNat < offline.lu.platterSectors
      ∧ ((1#8).toNat, MatchMode.outside) ∈ [(0, MatchMode.inside), (1, .outside)]
      ∧ ((3#8).toNat, RangeAction.boost4) ∈ [(0, RangeAction.pin), (1, .bypass), (2, .boost2), (3, .boost4)] := by
  refine ⟨?_, ?_, by decide⟩ <;> unfold mayTake linkReady passesTests <;> decide

theorem witness_SetParameterStores :
    mayTake .setParameter head offline ∧ (0#8).toNat = 0 ∧ 24 < (25#8).toNat
      ∧ storedNumber offline.lu.frameCount 1 0 = some 1 ∧ storedNumber offline.lu.frameCount 24 65 = some 1 := by
  unfold mayTake linkReady passesTests; decide

theorem witness_SetParameterDirtyBounds : mayTake .setParameter head offline := by
  unfold mayTake linkReady passesTests; decide

/-- A state byte past the last, a repeated report, and a change to STOPPED from READY. -/
theorem witness_ReportSpindle :
    mayTake .reportSpindle head online ∧ 5 ≤ (5#8).toNat ∧ online.pm.state = .stopped
      ∧ mayTake .reportSpindle head { online with pm.state := .ready }
      ∧ ((0#8).toNat, PlatterState.stopped)
          ∈ [(0, PlatterState.stopped), (1, .starting), (2, .ready), (3, .stopping), (4, .parked)]
      ∧ online.params.streamClearMask.getLsbD 0 = true := by
  unfold mayTake linkReady passesTests; decide

/-- A change to READY from STARTING, which the degrade clear mask selects, and one from PARKED, which it does not. -/
theorem witness_ReportSpindle_selected :
    let s : State := { online with pm.state := .starting, pm.excursion := 9, pm.degraded := true }
    let u : State := { s with pm.state := .parked, params.degradeClearMask := 0b01 }
    (mayTake .reportSpindle head s ∧ mayTake .reportSpindle head u) ∧
    s.params.degradeClearMask.getLsbD 0 = true ∧ u.params.degradeClearMask.getLsbD 1 = false
      ∧ ((2#8).toNat, PlatterState.ready)
          ∈ [(0, PlatterState.stopped), (1, .starting), (2, .ready), (3, .stopping), (4, .parked)] := by
  refine ⟨⟨?_, ?_⟩, by decide⟩ <;> unfold mayTake linkReady passesTests <;> decide

theorem witness_SetPortLevel :
    mayTake .setPortLevel head online ∧ 2 ≤ (2#8).toNat ∧ ((1#8).toNat, Port.platter) ∈ [(0, Port.flash), (1, .platter)] := by
  unfold mayTake linkReady passesTests; decide

theorem offline_at_rest : engineAtRest offline := by
  refine ⟨rfl, rfl, rfl, rfl, rfl, rfl, by decide, noYieldHeld_of_slots ?_⟩
  decide

/-- Go Online with nothing to do, and with the dirty count at DirtyHigh. -/
theorem witness_GoOnline :
    mayTake .goOnline head offline ∧ engineAtRest offline ∧ offline.sm.dirtyCount < offline.params.dirtyHigh
      ∧ mayTake .goOnline head { offline with sm.dirtyCount := 768 }
      ∧ offline.params.dirtyHigh ≤ ({ offline with sm.dirtyCount := 768 } : State).sm.dirtyCount := by
  refine ⟨?_, offline_at_rest, ?_⟩ <;> unfold mayTake linkReady passesTests <;> decide

theorem witness_GoOfflineAndDrain :
    (mayTake .goOffline head online ∧ online.me.slot0 = none ∧ online.me.slot1 = none) ∧
    let s := withMarker .goOffline (inMode .draining)
    s.lu.mode = .draining ∧ s.lu.marker = .goOffline ∧ s.ct.arrival = [] ∧ commandOrders s = false ∧ allMoves s = []
      ∧ framesIn .trimming s = 0 ∧ labelUpdatesPending s = false := by
  unfold mayTake linkReady passesTests; decide

theorem online_at_rest : engineAtRest online := by
  refine ⟨rfl, rfl, rfl, rfl, rfl, rfl, by decide, noYieldHeld_of_slots ?_⟩
  decide

/-- A Prefetch from the first segment beyond the platter, and of the last one on it. -/
theorem witness_Prefetch :
    mayTake .prefetch head online ∧ engineAtRest online ∧ lastSegment online < (8192#64).toNat
      ∧ (8191#64).toNat ≤ lastSegment online ∧ (evaluate (8191#64).toNat online).action ≠ .bypass
      ∧ lookup (8191#64).toNat online = none := by
  refine ⟨?_, online_at_rest, by decide⟩
  unfold mayTake linkReady passesTests; decide

theorem witness_Enquiries : mayTake .querySegment head online ∧ mayTake .readStatus head online := by
  unfold mayTake linkReady passesTests; decide

theorem witness_CancelBackground :
    let s : State := { online with me.queue := [newMove 0 .directed 5] }
    mayTake .cancelBackground head s ∧ s.me.active = none ∧ s.me.slot0 = none ∧ s.me.slot1 = none ∧ s.me.urgent = false
      ∧ s.pm.state ≠ .ready ∧ s.sm.dirtyCount < s.params.dirtyHigh := by
  unfold mayTake linkReady passesTests; decide

/-! ### Checkpoints and Rebuild -/

/-- A set byte of 64 and a mode of 2 refused; a save taken from OFFLINE and one from ONLINE with a piece that waits. -/
theorem witness_SaveTaken :
    mayTake .save head offline ∧ 64 ≤ (64#8).toNat ∧ 2 ≤ (2#8).toNat ∧ (63#8).toNat < 64 ∧ (1#8).toNat < 2
      ∧ offline.lu.mode = .offline
      ∧ mayTake .save head (withCommand 3 (sampleCommand .write false [samplePiece (.waiting .route)]) online) := by
  unfold mayTake linkReady passesTests; decide

/-- A state in OFFLINE whose quiesce of a save is over, with an image of the present geometry. -/
def quiesced (inUse : CompSet) (full : Bool) : State :=
  { offline with
    lu.marker := .save
    cu.operation := .quiescing 0b111111 full
    cu.inUse := inUse
    cu.image := { Header.initial with layout := some .standard, frameCount := 1024, present := inUse } }

theorem witness_QuiesceEnds :
    (let s := quiesced 0 false
     s.lu.mode = .offline ∧ commandOrders s = false ∧ chunkInFlight s = false ∧ framesIn .trimming s = 0
        ∧ labelUpdatesPending s = false ∧ s.cu.layout = some .standard ∧ s.cu.image.layout = some .standard
        ∧ s.cu.image.frameCount = s.lu.frameCount ∧ s.cu.image.sequence < 4294967295
        ∧ (0b111111 &&& s.cu.inUse &&& s.cu.modified : CompSet) = 0
        ∧ ((s.cu.image.present &&& ~~~0b111111) ||| (0b111111 &&& s.cu.inUse) : CompSet) = s.cu.image.present) ∧
    (let s := quiesced 0b101000 true
     (0b111111 &&& s.cu.inUse &&& 0b111111 : CompSet).getLsbD 3 = true
        ∧ (∀ d : Fin 6, d < 3 → (0b111111 &&& s.cu.inUse &&& 0b111111 : CompSet).getLsbD d.val = false)
        ∧ s.fps.background.length < 16 ∧ workViewTrue s) := by
  unfold workViewTrue; decide

/-- A save's progress at its header, and at the record of C3. -/
def saveAt (current : Option (Fin 6)) : SaveProgress :=
  ⟨0b111111, false, 0b001000, 0b001000, 1, [], current, 0b001000, Header.initial.entries, 1, Header.initial, none⟩

/-- A save that ends outside SAVING, and one that ends in SAVING with a HELD command or with none. -/
theorem witness_SaveEnds :
    offline.lu.mode ≠ .saving ∧ (saveAt none).current = none ∧ (saveAt (some 3)).current = some 3
      ∧ saving.lu.mode = .saving ∧ saving.ct.arrival = []
      ∧ (withCommand 3 { sampleCommand .write false [] with held := true } saving).ct.arrival = [3] := by decide

theorem witness_SaveEnds_at_rest : engineAtRest saving ∧ arrivalExact saving := by
  refine ⟨⟨rfl, rfl, rfl, rfl, rfl, rfl, by decide, noYieldHeld_of_slots (by decide)⟩, ?_⟩
  unfold arrivalExact; decide

/-- A set byte of 64 refused and one of 63 taken. -/
theorem witness_RestoreAndItsHeader_taken : mayTake .restore head offline ∧ 64 ≤ (64#8).toNat ∧ (63#8).toNat < 64 := by
  unfold mayTake linkReady passesTests; decide

theorem witness_RestoreAndItsHeader_read :
    let s : State := { offline with cu.operation := .restoreDraining 0b000001 }
    s.cu.operation = .restoreDraining 0b000001 ∧ frameOrders s = false ∧ s.fps.background.length < 16
      ∧ workViewTrue s ∧ frameOrders { s with held := [.trim 0] } = true := by
  unfold workViewTrue; decide

/-- A state whose checkpoint buffer holds the given bytes behind the header's signature. -/
def headerRead (bs : List Byte) : State := { offline with cu.buffer := headerSignature ++ bs }

/-- An unreadable header, one with an unknown layout, and one of another FrameCount. -/
theorem witness_RestoreAndItsHeader_refused :
    ¬ (false = true ∧ signatureRight State.reset.cu.buffer = true)
      ∧ signatureRight (headerRead [3]).cu.buffer = true ∧ headerValid (headerRead [3]).cu.buffer = false
      ∧ signatureRight (headerRead [1]).cu.buffer = true ∧ headerValid (headerRead [1]).cu.buffer = true
      ∧ (readHeader (headerRead [1]).cu.buffer).frameCount ≠ (headerRead [1]).lu.frameCount
      ∧ (⟨0b000001, [], none, 0, 0, none⟩ : RestoreProgress).requested.getLsbD 0 = true := by decide +kernel

theorem witness_RebuildBegins :
    mayTake .rebuild head offline ∧
    let s : State := { offline with cu.operation := .rebuildDraining }
    s.cu.operation = .rebuildDraining ∧ frameOrders s = false ∧ 0 < s.lu.frameCount ∧ s.fps.background.length ≤ 16
      ∧ frameOrders { s with held := [.trim 0] } = true := by
  unfold mayTake linkReady passesTests; decide

/-- Two claimants of one segment with one write sequence, and a third with a higher one. -/
theorem witness_RebuildKeepsNewestClaim :
    ([⟨5, 1, ⟨5, 9, false, true, 0, 0⟩⟩, ⟨5, 0, ⟨5, 9, false, true, 0, 0⟩⟩, ⟨5, 2, ⟨5, 10, false, true, 0, 0⟩⟩].map
      Claim.frame).Nodup := by decide

/-- A set byte of 64, C0 with an order naming a frame, and C0 to C5 with none. -/
theorem witness_InitializeComponents :
    mayTake .initializeComponents head offline ∧ 64 ≤ (64#8).toNat ∧ (63#8).toNat < 64 ∧ (63#8).getLsbD 0 = true
      ∧ frameOrders offline = false ∧ frameOrders { offline with held := [.trim 0] } = true
      ∧ (62#8).getLsbD 0 = false ∧ (61#8).getLsbD 1 = false ∧ (63#8).getLsbD 3 = true ∧ (63#8).getLsbD 4 = true := by
  unfold mayTake linkReady passesTests; decide

/-! ### Time, notices and counters -/

theorem witness_MillisecondTickAndQuiet :
    let s : State := { online with pm.state := .ready, pm.quietReached := true }
    s.pm.quietReached = true ∧ s.pm.state = .ready ∧ s.pm.platterWork = false ∧ s.pm.movesExist = false
      ∧ s.pm.quietArmed = true ∧ s.lu.marker ≠ .resetEngine := by decide

/-- An aging event below EpochSpan, and one that reaches it. -/
theorem witness_TimeAgingEvent :
    let s : State := { online with hu.secondsDue := 1 }
    let u : State := { s with hu.agingCount := 59, params.streamClearMask := 0b0010 }
    s.hu.secondsDue = 0 + 1 ∧ s.lu.mode = .online ∧ s.hu.agingCount + 1 < s.params.epochSpan
      ∧ u.params.epochSpan ≤ u.hu.agingCount + 1 ∧ u.hu.epoch < 4294967295
      ∧ u.params.streamClearMask.getLsbD 1 = true ∧ s.params.streamClearMask.getLsbD 1 = false := by decide

/-- Eight notices of a kind. -/
def fullNotices (k : NoticeKind) : List Notice := List.replicate 8 ⟨k, 1, 0, 0⟩

/-- A kind that is skipped, one posted, one that merges, one deferred, and one deferred already. -/
theorem witness_OccurrencePosts :
    online.lu.marker ≠ .resetEngine
      ∧ min 65535 (online.lu.occurrences[NoticeKind.heatLimit.index].count + 1)
          ≤ ({ online with params.noticeSkip := Vector.replicate 8 1 } : State).params.noticeSkip[NoticeKind.heatLimit.index]
      ∧ online.params.noticeSkip[NoticeKind.heatLimit.index]
          < min 65535 (online.lu.occurrences[NoticeKind.heatLimit.index].count + 1)
      ∧ online.lu.notices.length < 8 ∧ 8 ≤ (fullNotices .mediaFault).length
      ∧ (∀ n ∈ fullNotices .mediaFault, n.kind ≠ .heatLimit) ∧ NoticeKind.heatLimit ∉ online.lu.deferred
      ∧ NoticeKind.heatLimit ∈ ({ online with lu.deferred := [.heatLimit] } : State).lu.deferred
      ∧ fullNotices .heatLimit = List.replicate 7 ⟨.heatLimit, 1, 0, 0⟩ ++ ⟨.heatLimit, 1, 0, 0⟩ :: [] := by decide

theorem witness_ResponseLinkSend :
    let s : State := { online with lu.notices := fullNotices .mediaFault, lu.deferred := [.heatLimit] }
    ({ online with lu.completions := [.command 0 .good .none] } : State).lu.completions = .command 0 .good .none :: []
      ∧ s.lu.completions = [] ∧ s.lu.notices = ⟨.mediaFault, 1, 0, 0⟩ :: List.replicate 7 ⟨.mediaFault, 1, 0, 0⟩
      ∧ s.lu.notices.length ≤ 8 ∧ s.lu.deferred = .heatLimit :: []
      ∧ ({ online with lu.notices := fullNotices .mediaFault } : State).lu.deferred = [] := by decide

theorem witness_ChangeReports :
    ({ online with stats := Vector.replicate 32 4294967295 } : State).stats[counterIndex .spills] = 4294967295
      ∧ online.stats[counterIndex .spills] < 4294967295 := by decide

/-! ### Routing and the ports -/

/-- A state with one WAITING piece of a command under tag 3 and a pass called for. -/
def waitingPiece (k : CommandKind) (noPromote : Bool) : State :=
  { withCommand 3 (sampleCommand k noPromote [samplePiece (.waiting .route)]) online with ct.passDue := true }

theorem waitingPiece_at_rest (k : CommandKind) (b : Bool) (e : SegmentMap) (r : RangeComparator) (q : Params) :
    engineAtRest { waitingPiece k b with sm := e, rc := r, params := q } := by
  refine ⟨rfl, rfl, rfl, rfl, rfl, rfl, ?_, noYieldHeld_of_slots ?_⟩
  · exact fun h => nomatch h
  · have h : ∀ t : Fin 32,
        ((commandOf t (waitingPiece k b)).all fun c => c.pieces.all fun p => p.state != .held true) = true := by
      cases k <;> cases b <;> decide
    exact h

/-- The hypotheses common to the clauses, and those of the first three. -/
theorem witness_RoutingPass :
    (∀ k : CommandKind, (waitingPiece k true).ct.passDue = true ∧ (waitingPiece k true).lu.mode ≠ .saving
      ∧ (waitingPiece k true).ct.arrival = [3]
      ∧ commandOf 3 (waitingPiece k true) = some (sampleCommand k true [samplePiece (.waiting .route)])) ∧
    (∀ (k : CommandKind) (b : Bool) (m : SegmentMap) (r : RangeComparator) (q : Params),
      engineAtRest { waitingPiece k b with sm := m, rc := r, params := q }) ∧
    (lookup 0 (waitingPiece .read true) = none ∧ (waitingPiece .read true).pps.foreground.length < 64) ∧
    (let s := withEntry (sampleEntry .clean none) (waitingPiece .read true)
     lookup 0 s = some (sampleEntry .clean none) ∧ (0xff : SectorSet) &&& ~~~validSet (sampleEntry .clean none) = 0
        ∧ s.fps.foreground.length < 64) ∧
    (let s : State := { waitingPiece .write true with sm.freeList := [0], sm.frames := [⟨.free, 0⟩] }
     lookup 0 s = none ∧ s.fps.foreground.length < 64 ∧ s.sm.freeList = 0 :: []) := by
  refine ⟨fun k => by cases k <;> decide, fun k b m r q => waitingPiece_at_rest k b m r q, ?_⟩
  decide

/-- A READ that the valid set holds in part, a TRIM, and a WRITE with neither a frame nor a victim. -/
theorem witness_RoutingPass_more :
    (let e : Entry := { sampleEntry .clean none with validity := .part 0x0f }
     let s := withEntry e (waitingPiece .read true)
     lookup 0 s = some e ∧ (0xff : SectorSet) &&& validSet e ≠ 0 ∧ (0xff : SectorSet) &&& ~~~validSet e ≠ 0
        ∧ s.fps.foreground.length < 64 ∧ s.pps.foreground.length < 64) ∧
    (let s := waitingPiece .trim true
     lookup 0 s = none ∧ s.pps.foreground.length < 64 ∧ s.pps.foreground = []) ∧
    (let s := waitingPiece .write true
     lookup 0 s = none ∧ s.fps.foreground.length < 64 ∧ s.pps.foreground.length < 64 ∧ s.sm.freeList = []
        ∧ victimScan s = none ∧ (sampleCommand .write true []).classCopy.noPromote = true) := by decide +kernel

/-- A WRITE with the platter READY. -/
theorem witness_RoutingPass_ready :
    let s : State := { waitingPiece .write true with pm.state := .ready }
    lookup 0 s = none ∧ s.pps.foreground.length < 64 ∧ s.pm.degraded = false ∧ (evaluate 0 s).action ≠ .pin
      ∧ s.me.active = none ∧ s.me.queue = [] ∧ s.me.stack = [] ∧ s.me.urgent = false ∧ s.sm.dirty = [] ∧ noYieldHeld s :=
  ⟨by decide, by decide, by decide, by decide, rfl, rfl, rfl, rfl, rfl,
    (waitingPiece_at_rest .write true State.reset.sm State.reset.rc State.reset.params).2.2.2.2.2.2.2⟩

/-- An absent segment's READ that asks for admission at an AdmitThreshold and a Hysteresis, with one CLEAN entry, of segment 1,
and a Free Frame List. -/
def admitting (threshold hysteresis : Nat) (free : List Nat) : State :=
  { waitingPiece .read false with
    sm.entries := [{ sampleEntry .clean none with segment := 1, absorbs := 0 }]
    sm.frames := [⟨.bound, 0⟩]
    sm.reclaim := [1]
    sm.freeList := free
    params := { online.params with admitThreshold := threshold, hysteresis := hysteresis, freeReserve := 0 } }

/-- The clauses of admission: a PIN range; a heat of 64 below its threshold and at it; room on the Free Frame List; no victim; a
victim that is too hot, and one that gives way. -/
theorem witness_RoutingPass_admission :
    let heat := fun s : State => (heatUpdate 0 (sampleCommand .read false [samplePiece (.waiting .route)]) 1 s).1
    let s := admitting 64 256 []
    let cold : State := { s with params.hysteresis := 0, hu.epoch := 1 }
    (commandOf 3 s = some (sampleCommand .read false [samplePiece (.waiting .route)]) ∧ lookup 0 s = none
      ∧ s.pps.foreground.length < 64 ∧ s.lu.mode = .online ∧ s.lu.marker ≠ .resetEngine ∧ s.fps.foreground = []
      ∧ evaluate 0 s = ⟨.none, none, 1⟩ ∧ s.pm.degraded = false ∧ s.ct.passDue = true ∧ s.ct.arrival = [3]) ∧
    (evaluate 0 { s with rc := workedRanges.rc }).action = .pin ∧ heat (admitting 512 256 []) < 512 ∧ heat s = 64
      ∧ ({ s with sm.freeList := [0] } : State).params.freeReserve < 1
      ∧ ¬ s.params.freeReserve < s.sm.freeList.length ∧ victimScan { s with sm.reclaim := [] } = none
      ∧ victimScan s = some (1, 100) ∧ 64 < min 65535 (100 + s.params.hysteresis)
      ∧ victimScan cold = some (1, 50) ∧ min 65535 (50 + cold.params.hysteresis) ≤ heat cold
      ∧ lookup 1 cold = some { sampleEntry .clean none with segment := 1, absorbs := 0 } ∧ 0 < cold.sm.frames.length := by decide +kernel

theorem witness_RoutingPass_arrival : arrivalExact (admitting 64 256 []) := by unfold arrivalExact; decide

/-- A Foreground head on each port with no eligible Background order. -/
theorem witness_DispatchForegroundHead :
    (let s : State := { online with fps.foreground := [sampleOrder .flash] }
     s.lu.marker ≠ .resetEngine ∧ (sched .flash s).outstanding.length < 8
        ∧ (sched .flash s).foreground = sampleOrder .flash :: [] ∧ oldestEligible .flash s = none) ∧
    (let s : State := { online with pps.foreground := [sampleOrder .platter], pm.state := .ready }
     s.pm.state = .ready ∧ (sched .platter s).outstanding.length < 4
        ∧ (sched .platter s).foreground = sampleOrder .platter :: [] ∧ oldestEligible .platter s = none) := by decide

/-- A Foreground head and an eligible chunk order, with the starvation count at 16 and below it. -/
theorem witness_DispatchArbitration :
    let s : State :=
      { online with
        pps.foreground := [sampleOrder .platter]
        pps.background := [chunkRead]
        pps.starvation := 16
        pm.state := .ready }
    s.lu.marker ≠ .resetEngine ∧ s.pm.state = .ready ∧ s.pps.outstanding.length < 4
      ∧ s.pps.foreground = sampleOrder .platter :: [] ∧ oldestEligible .platter s = some 0
      ∧ s.pps.background[0]? = some chunkRead ∧ chunkRead.origin = .chunk 0 0 ∧ s.pps.starvation = 16
      ∧ oldestEligible .platter { s with pps.starvation := 15 } = some 0 := by decide

/-- The piece whose one platter order is out. -/
def issuedPiece : Piece :=
  ⟨0, 0xff, .issued, some .platterRead, [⟨.platter, .read, 0xff, .placed⟩], false, false, false⟩

theorem witness_OrderResults :
    let d : Dispatched := ⟨0, sampleOrder .platter, none, 0⟩
    let s : State := { withCommand 3 (sampleCommand .read false [issuedPiece]) online with pps.outstanding := [d] }
    (∀ x ∈ (sched .flash s).outstanding, x.id ≠ 0) ∧ (withMarker .resetEngine s).lu.marker = .resetEngine
      ∧ s.lu.marker ≠ .resetEngine ∧ (s.pps.outstanding.find? fun x => x.id == 0) = some d
      ∧ d.order.origin = .piece 3 1 issuedPiece.segment 0 ∧ d.order.address = .platter issuedPiece.segment
      ∧ s.ct.slots[(3 : Fin 32)] = ⟨1, some (sampleCommand .read false [issuedPiece])⟩
      ∧ issuedPiece.state = .issued ∧ issuedPiece.parts = [⟨.platter, .read, 0xff, .placed⟩]
      ∧ s.ct.arrival = [3] ∧ commandOf 3 s = some (sampleCommand .read false [issuedPiece]) := by decide

/-- The clause on the latency window: a late order and one in time, an interrupted one, a count that reaches DegradeThreshold, and
one that falls to 0 with Degraded set. -/
theorem witness_OrderResults_window :
    let d : Dispatched := ⟨0, sampleOrder .platter, none, 0⟩
    let late : State := { online with timebase := 401, pm.excursion := 12, pm.watch := [⟨0, false⟩], pps.outstanding := [d] }
    let cut : State := { late with pm.watch := [⟨0, true⟩] }
    let prompt : State := { late with timebase := 400, pm.excursion := 1, pm.degraded := true }
    late.lu.marker ≠ .resetEngine ∧ (late.pps.outstanding.find? fun x => x.id == 0) = some d
      ∧ late.params.latencyLimit < (late.timebase - d.time).toNat
      ∧ late.params.degradeThreshold ≤ min 63 (late.pm.excursion + 4) ∧ late.pm.degraded = false
      ∧ ((cut.pm.watch.find? fun w => w.id == 0).any fun w => w.interrupted) = true
      ∧ ¬ prompt.params.latencyLimit < (prompt.timebase - d.time).toNat ∧ prompt.pm.excursion - 1 = 0
      ∧ ∀ n, d.order.origin ≠ .checkpoint n := by
  refine ⟨?_, ?_, ?_, ?_, ?_, ?_, ?_, ?_, fun n h => nomatch h⟩ <;> decide

/-! ### The Segment Map, moves, ranges, heat and streams -/

/-- An absorb's OK on a NEW and on a DIRTY entry; the finish of a flush that matches and of one that was overtaken. -/
theorem witness_AbsorbsAndFlushes :
    (∀ st : EntryState, lookup 0 (withEntry (sampleEntry st (some 4)) online) = some (sampleEntry st (some 4))) ∧
    (sampleEntry .fresh none).frame = 0 ∧ (sampleEntry .fresh none).state = .fresh ∧ (sampleEntry .dirty none).state = .dirty
      ∧ (sampleEntry .flushing (some 4)).marker = some 4 ∧ (sampleEntry .flushing (some 4)).state = .flushing
      ∧ (some 0 : Option Byte) = some (sampleEntry .flushing (some 4)).generation := by
  refine ⟨fun st => by cases st <;> decide, by decide⟩

/-- A victim among two evictable entries: the colder one. -/
theorem witness_VictimScan :
    victimScan { online with
      sm.entries := [⟨0, 0, .clean, .full, 0, ⟨100, 0, false⟩, 0, 0, none⟩, ⟨1, 1, .clean, .full, 0, ⟨50, 0, false⟩, 0, 0, none⟩]
      sm.reclaim := [0, 1] } = some (1, 50) := by decide

/-- A Move Queue of a DIRECTED move, a FLUSH and a PROMOTE stands in order of level. -/
theorem witness_MoveEligibilityAndOrder :
    [newMove 0 .directed 1, newMove 1 .flush 2, newMove 2 .promote 3].Pairwise (fun a b => moveLevel b ≤ moveLevel a) := by
  decide

/-- An active move of segment 9 in frame 0, with its chunks needed. -/
def activeMove (k : MoveKind) (needed : Option ChunkSet) : Move :=
  { newMove 0 k 9 with state := .active, frame := some 0, needed := needed }

/-- An order of chunk 0 of the move with number 0. -/
def chunkOrder (p : Port) (op : Operation) (l : Nat) : Order :=
  ⟨p, .background, .chunk 0 0, op, match p with | .flash => .frame 0 | .platter => .platter 9, some (chunkMask 0), none,
    .staging 0, some l⟩

/-- The entry of segment 9 that the move with number 0 owns. -/
def ownedEntry (st : EntryState) : Entry := { sampleEntry st (some 0) with segment := 9 }

/-- ONLINE with that entry and an active move whose chunk 0 holds staging slot 0, the platter READY. -/
def moving (m : Move) (st : EntryState) (stage : ChunkStage) : State :=
  { withEntry (ownedEntry st) online with
    pm.state := .ready
    sm.reclaim := []
    me.active := some m
    me.slot0 := some ⟨0, stage⟩ }

/-- A WRITE piece of segment 9 before the promotion of `moving`. -/
def meeting (stage : ChunkStage) : State :=
  { withCommand 3 ⟨.write, 0, 1152, 8, 5, ⟨16, 4, false, true⟩, false, false, [{ samplePiece (.waiting .route) with segment := 9 }]⟩
      (moving (activeMove .promote (some 0b1111)) .inbound stage) with
    ct.passDue := true
    fps.background := List.replicate 16 (trimOrder 0) }

/-- The hypotheses of the clause of `RoutingPass` on a piece that becomes HELD. -/
theorem witness_RoutingPass_held :
    let s := meeting .reading
    let m := activeMove .promote (some 0b1111)
    s.ct.passDue = true ∧ s.lu.mode ≠ .saving ∧ s.ct.arrival = [3] ∧ lookup 9 s = some (ownedEntry .inbound)
      ∧ s.me.active = some m ∧ m.kind = .promote ∧ m.segment = 9 ∧ m.state = .active
      ∧ s.me.slot0 = some ⟨0, .reading⟩ ∧ s.me.slot1 = none ∧ s.me.queue = [] ∧ s.me.urgent = false ∧ s.sm.dirty = [] := by
  decide

/-- A piece is HELD while a chunk's read is queued or outstanding, and routed in the same attempt where the chunk only waits for
room for its write: the promotion then ends by yield and its slot is FREE (R14, R78). -/
theorem test_promotion_met :
    after (exec .routingPass (meeting .reading)) (fun s => (s.fps.foreground.length, s.me.active.isSome)) = some (0, true)
      ∧ after (exec .routingPass (meeting .writeWaiting)) (fun s =>
          (s.fps.foreground.map Order.address, s.me.active.isSome, s.me.slot0, (lookup 9 s).map Entry.state))
        = some ([.frame 0], false, none, some .clean) := by decide +kernel

/-- A HELD piece stays HELD while a chunk in flight waits for room for its write, and is released with none in flight (R126). -/
theorem test_held_until_no_chunk_in_flight :
    let c : Command := ⟨.write, 0, 1152, 8, 5, ⟨16, 4, false, true⟩, false, false, [{ samplePiece (.held true) with segment := 9 }]⟩
    let s := withCommand 3 c (moving (activeMove .promote (some 0b1111)) .inbound .writeWaiting)
    let held := fun t => (commandOf 3 t).map fun c => c.pieces.map Piece.state
    held (releaseYields s) = some [.held true]
      ∧ held (releaseYields { s with me.slot0 := none }) = some [.waiting .route] := by decide +kernel

/-- A stopped active move takes the preempt mark (R120). -/
theorem test_preempt_marks_stopped_move :
    let s := moving { activeMove .promote (some 0b1111) with stop := some .cancel } .inbound .writing
    (preemptTest { s with me.queue := [newMove 4 .urgent 8] }).me.active.map Move.preempt = some true := by decide

/-- A chunk's platter read returns, with chunk 1 to start next. -/
theorem witness_MoveEligibilityAndOrder_read :
    let m := activeMove .promote (some 0b0011)
    let d : Dispatched := ⟨0, chunkOrder .platter .read 1, none, 0⟩
    let s : State := { moving m .inbound .reading with pps.outstanding := [d] }
    s.lu.mode = .online ∧ s.lu.marker ≠ .resetEngine ∧ s.me.active = some m ∧ m.stop = none ∧ m.kind = .promote
      ∧ m.preempt = false ∧ m.yielding = false ∧ m.needed.isSome = true ∧ m.frame = some 0 ∧ s.me.queue = []
      ∧ s.sm.dirty = [] ∧ s.me.slot0 = some ⟨0, .reading⟩ ∧ s.me.slot1 = none
      ∧ (s.pps.outstanding.find? fun x => x.id == 0) = some d ∧ d.order.origin = .chunk m.number 0
      ∧ d.order.op = .read ∧ s.fps.background.length < 16 ∧ 128 * m.segment + 128 ≤ s.lu.platterSectors
      ∧ (m.needed.getD 0).getLsbD 1 = true ∧ m.done.getLsbD 1 = false ∧ s.pps.background.length < 16 := by decide

/-- A chunk's flash write returns: with a chunk left, as the last one, and with an URGENT move behind it and two moves on the
Move Stack, or none. -/
theorem witness_MoveEligibilityAndOrder_write :
    let m := activeMove .directed (some 0b0011)
    let d : Dispatched := ⟨0, chunkOrder .flash .write 3, none, 0⟩
    let a : Move := { newMove 1 .flush 7 with state := .suspended }
    let b : Move := { newMove 2 .promote 6 with state := .suspended }
    let u := newMove 3 .urgent 8
    let v : Entry := { sampleEntry .dirty (some 3) with segment := 8, frame := 1 }
    let s : State := { moving m .inbound .writing with fps.outstanding := [d] }
    let x : State := { s with me.queue := [u], me.stack := [a, b], sm.entries := [v, ownedEntry .inbound], sm.dirty := [8] }
    (movesExact s ∧ movesExact x ∧ movesExact { x with me.stack := [] }) ∧
    (s.me.active = some m ∧ m.needed.isSome = true ∧ m.stop = none ∧ m.preempt = false ∧ s.me.queue = []
      ∧ s.sm.dirty = [] ∧ s.me.slot0 = some ⟨0, .writing⟩ ∧ s.me.slot1 = none
      ∧ (s.fps.outstanding.find? fun y => y.id == 0) = some d ∧ d.order.origin = .chunk m.number 0 ∧ d.order.op = .write
      ∧ lookup 9 s = some (ownedEntry .inbound) ∧ (ownedEntry .inbound).marker = some m.number
      ∧ (0b0011 &&& ~~~(m.done ||| 0b0001) : ChunkSet) ≠ 0 ∧ (0b0001 &&& ~~~(m.done ||| 0b0001) : ChunkSet) = 0) ∧
    (x.me.queue = [u] ∧ u.kind = .urgent ∧ x.pm.state = .ready ∧ x.fps.level < 4 ∧ x.pps.level < 4
      ∧ lookup 8 x = some v ∧ lookup 9 x = some (ownedEntry .inbound)) := by
  refine ⟨⟨?_, ?_, ?_⟩, by decide, by decide⟩ <;>
    refine ⟨by decide, by decide, by decide, by decide, by decide, by decide, by decide, by decide, ?_⟩ <;>
    exact fun y h => Or.inl (by injection h with h; rw [← h]; rfl)

/-- The dispatch of a flush's first chunk read. -/
theorem witness_MoveEligibilityAndOrder_flush :
    let m := activeMove .flush none
    let o := chunkOrder .flash .read 2
    let s : State := { moving m .dirty .reading with sm.dirty := [9], sm.dirtyCount := 1, fps.background := [o] }
    s.lu.mode = .online ∧ s.me.active = some m ∧ m.kind = .flush ∧ m.started = false ∧ m.preempt = false ∧ m.stop = none
      ∧ s.me.queue = [] ∧ s.me.urgent = false ∧ s.fps.foreground = [] ∧ s.fps.outstanding.length < 8
      ∧ o.origin = .chunk m.number 0 ∧ o.op = .read ∧ o.address = .frame 0 ∧ o.level = some (moveLevel m)
      ∧ s.fps.level < moveLevel m ∧ lookup m.segment s = some (ownedEntry .dirty)
      ∧ (ownedEntry .dirty).marker = some m.number := by decide

/-- A window within a segment, and one that an end beyond the platter closes. -/
theorem witness_SlotMatchesSegment :
    (⟨true, 130, 140, .inside, .pin⟩ : RangeSlot).start ≤ (⟨true, 130, 140, .inside, .pin⟩ : RangeSlot).stop
      ∧ slotMatches 1 ⟨true, 130, 140, .inside, .pin⟩ = true ∧ slotMatches 1 ⟨true, 130, 140, .outside, .pin⟩ = false
      ∧ 128 * 1 < 200 ∧ 200 - 1 < (⟨true, 130, 300, .inside, .pin⟩ : RangeSlot).stop := by decide

/-- Each action governs a segment of the worked example of 3.1, and one segment has none. -/
theorem witness_VerdictOfSegment :
    [100, 8195, 16384, 40000, 32767].map (fun g => (evaluate g workedRanges).action)
      = [.pin, .bypass, .boost4, .boost2, .none] := by decide

/-- The lengths on both sides of 16 and 64, and the greatest contribution. -/
theorem witness_ContributionOfAccess :
    let c : Command := ⟨.read, 0, 0, 16, 0, ⟨255, 255, false, false⟩, false, false, []⟩
    1 ≤ c.length ∧ c.length ≤ 8192 ∧ c.classCopy.readWeight ≤ 255 ∧ c.classCopy.writeWeight ≤ 255
      ∧ contribution c 4 = 4080 ∧ contribution { c with length := 17 } 4 = 2040
      ∧ contribution { c with length := 65 } 4 = 1020 ∧ contribution { c with sequential := true } 4 = 0 := by decide

theorem witness_DecayOfHeat :
    (65535 ≤ 65535) ∧ (16 ≤ 16) ∧ (40 ≤ 40) ∧ (37 ≤ 37) ∧ (⟨9, 0, true⟩ : HeatRec).stamp = online.hu.epoch
      ∧ (⟨9, 0, true⟩ : HeatRec).stamp < ({ online with hu.epoch := 1 } : State).hu.epoch := by decide

/-- Four candidates that fill set 5. -/
def fullSet : List Candidate :=
  [⟨20, 5, ⟨40, 0, false⟩⟩, ⟨21, 1029, ⟨30, 0, false⟩⟩, ⟨22, 2053, ⟨30, 0, false⟩⟩, ⟨23, 3077, ⟨90, 0, false⟩⟩]

/-- A full set whose coldest candidate is its second way, and an empty set. -/
theorem witness_CandidateTableUpdate :
    let s : State := { online with hu.candidates := fullSet }
    candidatesWf s.hu.candidates ∧ candidatesWf [] ∧ (∀ x ∈ s.hu.candidates, x.segment ≠ 4101)
      ∧ (⟨21, 1029, ⟨30, 0, false⟩⟩ : Candidate) ∈ s.hu.candidates ∧ 21 / 4 = 4101 % 1024
      ∧ (∀ x ∈ s.hu.candidates, decayedHeat ⟨30, 0, false⟩ s ≤ decayedHeat x.heat s)
      ∧ (∀ x ∈ s.hu.candidates, x.place < 21 → decayedHeat ⟨30, 0, false⟩ s < decayedHeat x.heat s)
      ∧ decayedHeat ⟨30, 0, false⟩ s ≤ 30 ∧ 29 < decayedHeat ⟨30, 0, false⟩ s
      ∧ (∀ x ∈ s.hu.candidates, x.segment = 5 → x.place = 20) := by
  unfold candidatesWf; decide

/-- Each place of the full set holds a candidate; and in an empty table no place of the set lies below its first. -/
theorem witness_CandidateTableUpdate_ways :
    (∀ q : Fin 24, q.val / 4 = 4101 % 1024 → ∃ x ∈ fullSet, x.place = q.val)
      ∧ ∀ q : Fin 20, q.val / 4 ≠ 4101 % 1024 := by decide

/-- One valid record that a command at LBA 640 continues. -/
def oneStream : Vector StreamRec 8 := (Vector.replicate 8 StreamRec.initial).set 2 ⟨true, 640, 1024, 0⟩

/-- Eight valid records, the last the least recently used. -/
def fullStreams : Vector StreamRec 8 := Vector.ofFn fun i => ⟨true, 1000 + i.val, 1, i.val⟩

theorem witness_StreamConsultation :
    streamsWf oneStream ∧ streamsWf fullStreams ∧ oneStream[2].valid = true ∧ oneStream[2].next = 640
      ∧ oneStream[0].valid = false ∧ (∀ j : Fin 8, j < 0 → oneStream[j].valid = true)
      ∧ (∀ j : Fin 8, fullStreams[j].valid = true) ∧ fullStreams[7].rank = 7
      ∧ (∀ i : Fin 8, fullStreams[i].valid = true → fullStreams[i].next ≠ 999) := by
  refine ⟨?_, ?_, by decide⟩ <;> unfold streamsWf <;> decide

/-! ### Invariants and formats -/

/-- Each Engine Mode with the marker and operation that go with it. -/
theorem witness_modeConsistent :
    modeConsistent State.reset ∧ modeConsistent online ∧ modeConsistent offline
      ∧ modeConsistent { saving with cu.operation := .quiescing 0 false }
      ∧ modeConsistent (withMarker .goOffline (inMode .draining))
      ∧ modeConsistent { withMarker .restore (inMode .restoring) with cu.operation := .restoreDraining 0 }
      ∧ modeConsistent { withMarker .rebuild (inMode .rebuilding) with cu.operation := .rebuildDraining }
      ∧ modeConsistent (withMarker .resetEngine online) := by
  simp [modeConsistent, modeFits, State.reset, LinkUnit.initial, CheckpointUnit.initial, online, offline, saving, inMode,
    withMarker]

theorem witness_ModeStaysConsistent :
    ∃ s t : State, modeConsistent s ∧ step s = .next t ∧ s.lu.mode = .offline ∧ t.lu.mode = .rebuilding :=
  ⟨{ offline with pending := [.rebuild head] }, _, by
    simp [modeConsistent, modeFits, offline, inMode, State.reset, CheckpointUnit.initial, LinkUnit.initial], rfl, rfl,
    by decide⟩

theorem witness_ModeChangesByTable :
    ∃ t : State, modeConsistent offline ∧ exec (.rebuild head) offline = .next t ∧ t.lu.mode ≠ offline.lu.mode :=
  ⟨_, witness_modeConsistent.2.2.1, rfl, by decide⟩

theorem witness_CompletionQueueNeverOverflows :
    ∃ s t : State, modeConsistent s ∧ linkSum s ≤ 64 ∧ step s = .next t ∧ linkSum t = 1 :=
  ⟨{ offline with pending := [.rebuild head] }, _, by
    simp [modeConsistent, modeFits, offline, inMode, State.reset, CheckpointUnit.initial, LinkUnit.initial], by decide, rfl,
    by decide⟩

/-- A Frame Table with one BOUND frame, one FREE, and n RETIRED. -/
def filled (n : Nat) : List Frame := ⟨.bound, 0⟩ :: ⟨.free, 0⟩ :: List.replicate n ⟨.retired, 0⟩

theorem filled_length (n : Nat) : (filled n).length = n + 2 := by simp [filled]

theorem filled_bound (n f : Nat) : ((filled n)[f]?).map Frame.state = some .bound ↔ f = 0 := by
  obtain _ | _ | f := f <;> simp +contextual [filled, List.getElem?_replicate]

theorem filled_free (n f : Nat) : ((filled n)[f]?).map Frame.state = some .free ↔ f = 1 := by
  obtain _ | _ | f := f <;> simp +contextual [filled, List.getElem?_replicate]

/-- For `ArrivalListStaysExact`, `TablesStayWellFormed`, `BoundsStay` and `PortsStayBounded`: one CLEAN entry, one free frame, a
move that waits, and a tick. -/
theorem witness_StepInvariants :
    ∃ s t : State, arrivalExact s ∧ streamsWf s.streams ∧ candidatesWf s.hu.candidates ∧ mapExact s ∧ countersBounded s
      ∧ noticesBounded s ∧ portsBounded s ∧ movesExact s ∧ modeConsistent s ∧ workViewTrue s ∧ step s = .next t
      ∧ t.timebase = 1 ∧ t.lu.marker ≠ .resetEngine := by
  refine ⟨{ withEntry (sampleEntry .clean none) online with
      sm.frames := filled 1022
      sm.freeList := [1]
      me.queue := [newMove 0 .directed 5]
      pm.movesExist := true
      pending := [.millisecondTick] }, _, ?_, ?_, ?_, ?_, ?_, ?_, ?_, ?_, ?_, ?_, rfl, by decide, by decide⟩
  · unfold arrivalExact; decide
  · unfold streamsWf; decide
  · unfold candidatesWf; decide
  · refine ⟨⟨filled_length 1022, by decide, fun f => ?_, by decide, fun f => ?_⟩, ⟨by decide, by decide, fun g => ?_, by decide,
      fun g => ?_, by decide⟩, fun p h => nomatch h⟩
    · exact List.mem_singleton.trans (filled_free 1022 f).symm
    · exact (filled_bound 1022 f).trans (by simp [withEntry, sampleEntry, eq_comm])
    · simp [withEntry, sampleEntry, eq_comm]
    · simp [withEntry, sampleEntry, online, inMode, State.reset, SegmentMap.initial]
  · unfold countersBounded; decide
  · unfold noticesBounded; decide
  · unfold portsBounded schedulerBounded; decide
  · exact ⟨by decide, by decide, by decide, by decide, by decide, by decide, by decide, by decide, fun m h => nomatch h⟩
  · simp [modeConsistent, modeFits, online, inMode, withEntry, State.reset, CheckpointUnit.initial, LinkUnit.initial]
  · unfold workViewTrue; decide

/-- For the clause of `BoundsStay` on the parameters. -/
theorem witness_paramsInRange : paramsInRange online ∧ paramsInRange State.reset := by
  unfold paramsInRange; decide

theorem witness_DecodeOfEncode :
    (Instr.prefetch head 8191 64).wellFormed = true ∧ (encodeLink (.prefetch head 8191 64)).isSome = true
      ∧ (Instr.unknownKind 255 badHead).wellFormed = true := by decide

end Sys2Proof.Tests
end

/-! ## The Range Comparator: R54 and R55 -/

namespace Sys2Proof.Machine

/-! ### When a slot matches a segment (R54) -/

theorem slotMatches_of_inside {r : RangeSlot} (segment : Nat) (h : r.mode = .inside) :
    slotMatches segment r = true ↔ 128 * segment ≤ r.stop ∧ r.start ≤ 128 * segment + 127 := by
  simp [slotMatches, h]

theorem slotMatches_of_outside {r : RangeSlot} (segment : Nat) (h : r.mode = .outside) :
    slotMatches segment r = true ↔ 128 * segment + 127 < r.start ∨ r.stop < 128 * segment := by
  simp [slotMatches, h]

/-- The two comparisons of INSIDE say that the span and a window that is not empty share an LBA: the greater of the two
starts is one. -/
theorem span_meets_window_iff {segment start stop : Nat} (h : start ≤ stop) :
    (128 * segment ≤ stop ∧ start ≤ 128 * segment + 127) ↔
      ∃ lba, 128 * segment ≤ lba ∧ lba ≤ 128 * segment + 127 ∧ start ≤ lba ∧ lba ≤ stop := by
  constructor
  · rintro ⟨hstop, hstart⟩
    exact ⟨max (128 * segment) start, by omega, by omega, by omega, by omega⟩
  · rintro ⟨lba, _, _, _, _⟩
    omega

theorem slotMatches_inside_iff_outside_false (segment : Nat) (r : RangeSlot) :
    slotMatches segment { r with mode := .inside } = true ↔ slotMatches segment { r with mode := .outside } = false := by
  rw [← Bool.not_eq_true, slotMatches_of_inside segment rfl, slotMatches_of_outside segment rfl]
  simp only [not_or, not_lt, and_comm]

/-- Only whether the end lies below the segment's first LBA enters a match, so ends that agree on that match alike. -/
theorem slotMatches_congr_stop {segment stop : Nat} {r : RangeSlot} (h : r.stop < 128 * segment ↔ stop < 128 * segment) :
    slotMatches segment r = slotMatches segment { r with stop := stop } := by
  rw [Bool.eq_iff_iff]
  cases hmode : r.mode with
  | inside =>
    rw [slotMatches_of_inside segment hmode, slotMatches_of_inside segment rfl, ← not_lt, h, not_lt]
  | outside =>
    rw [slotMatches_of_outside segment hmode, slotMatches_of_outside segment rfl, h]

/-- Settles O46: each mode by its comparisons; an end beyond the platter and the platter's last LBA both lie at or above
the first LBA of a segment of the platter. -/
theorem slotMatchesSegment : Obligations.SlotMatchesSegment := by
  intro segment r
  refine ⟨slotMatches_of_inside segment, slotMatches_of_outside segment, fun hwindow => ?_,
    slotMatches_inside_iff_outside_false segment r, fun sectors hsegment hend => slotMatches_congr_stop (by omega)⟩
  exact (slotMatches_of_inside segment rfl).trans (span_meets_window_iff hwindow)

/-! ### The governing slot of an action (R55) -/

/-- Slot i is enabled, has action a and matches the segment: `slotGoverns` on the state's Range Table, as a proposition. -/
def Governs (segment : Nat) (s : State) (a : RangeAction) (i : Fin 16) : Prop :=
  s.rc.ranges[i].enabled = true ∧ s.rc.ranges[i].action = a ∧ slotMatches segment s.rc.ranges[i] = true

theorem slotGoverns_iff (segment : Nat) (s : State) (a : RangeAction) (i : Fin 16) :
    slotGoverns segment a s.rc.ranges i = true ↔ Governs segment s a i := by
  simp [slotGoverns, Governs, and_assoc]

theorem governingSlot_eq_none_iff {segment : Nat} {s : State} {a : RangeAction} :
    governingSlot segment a s.rc.ranges = none ↔ ¬ ∃ i, Governs segment s a i := by
  rw [governingSlot, ← Fin.find?_eq_find?_finRange, Fin.find?_eq_none_iff]
  simp [← slotGoverns_iff]

/-- The slots are searched in ascending order, so the one found is the lowest that governs. -/
theorem governingSlot_eq_some_iff {segment : Nat} {s : State} {a : RangeAction} {i : Fin 16} :
    governingSlot segment a s.rc.ranges = some i ↔
      Governs segment s a i ∧ ∀ j : Fin 16, j < i → ¬ Governs segment s a j := by
  rw [governingSlot, ← Fin.find?_eq_find?_finRange, Fin.find?_eq_some_iff]
  simp [← slotGoverns_iff]

theorem exists_governingSlot {segment : Nat} {s : State} {a : RangeAction} (h : ∃ i, Governs segment s a i) :
    ∃ i, governingSlot segment a s.rc.ranges = some i :=
  Option.ne_none_iff_exists'.mp fun hnone => governingSlot_eq_none_iff.mp hnone h

/-! ### The verdict (R55) -/

section
variable {segment : Nat} {s : State} {i : Fin 16}

theorem evaluate_of_bypass (hbypass : governingSlot segment .bypass s.rc.ranges = some i) :
    (evaluate segment s).action = .bypass ∧ (evaluate segment s).governing = some i.val := by
  simp [evaluate, hbypass]

theorem evaluate_of_pin (hbypass : governingSlot segment .bypass s.rc.ranges = none)
    (hpin : governingSlot segment .pin s.rc.ranges = some i) :
    (evaluate segment s).action = .pin ∧ (evaluate segment s).governing = some i.val := by
  simp [evaluate, hbypass, hpin]

theorem evaluate_of_boost4 (hbypass : governingSlot segment .bypass s.rc.ranges = none)
    (hpin : governingSlot segment .pin s.rc.ranges = none)
    (hboost4 : governingSlot segment .boost4 s.rc.ranges = some i) :
    (evaluate segment s).action = .boost4 ∧ (evaluate segment s).governing = some i.val := by
  simp [evaluate, hbypass, hpin, hboost4]

theorem evaluate_of_boost2 (hbypass : governingSlot segment .bypass s.rc.ranges = none)
    (hpin : governingSlot segment .pin s.rc.ranges = none)
    (hboost4 : governingSlot segment .boost4 s.rc.ranges = none)
    (hboost2 : governingSlot segment .boost2 s.rc.ranges = some i) :
    (evaluate segment s).action = .boost2 ∧ (evaluate segment s).governing = some i.val := by
  simp [evaluate, hbypass, hpin, hboost4, hboost2]

theorem evaluate_of_none (hbypass : governingSlot segment .bypass s.rc.ranges = none)
    (hpin : governingSlot segment .pin s.rc.ranges = none)
    (hboost4 : governingSlot segment .boost4 s.rc.ranges = none)
    (hboost2 : governingSlot segment .boost2 s.rc.ranges = none) :
    (evaluate segment s).action = .none ∧ (evaluate segment s).governing = none := by
  simp [evaluate, hbypass, hpin, hboost4, hboost2]

end

/-- The boost looks at the BOOST slots alone, whatever the action. -/
theorem evaluate_boost (segment : Nat) (s : State) :
    (evaluate segment s).boost =
      if (governingSlot segment .boost4 s.rc.ranges).isSome then 4
      else if (governingSlot segment .boost2 s.rc.ranges).isSome then 2 else 1 := by
  dsimp only [evaluate]
  split <;> rfl

theorem pinned_iff (segment : Nat) (s : State) : pinned segment s = true ↔ (evaluate segment s).action = .pin :=
  beq_iff_eq

/-- Settles O47: in each clause the governing slot of every action it names is known, found or absent, and these give the
verdict. -/
theorem verdictOfSegment : Obligations.VerdictOfSegment := by
  intro segment s governs any lowest v
  have found : ∀ a, any a →
      ∃ i : Fin 16, governingSlot segment a s.rc.ranges = some i ∧ ∀ g, g = some i.val → lowest a g := by
    intro a hany
    obtain ⟨i, hi⟩ := exists_governingSlot hany
    exact ⟨i, hi, fun _ hg => ⟨i, hg, governingSlot_eq_some_iff.mp hi⟩⟩
  have absent : ∀ a, ¬ any a → governingSlot segment a s.rc.ranges = none := fun _ => governingSlot_eq_none_iff.mpr
  refine ⟨?bypass, ?pin, ?boost4, ?boost2, ?none, ?boostIs4, ?boostIs2, ?boostIs1, pinned_iff segment s⟩
  case bypass =>
    intro hbypass
    obtain ⟨i, hi, hlowest⟩ := found _ hbypass
    exact (evaluate_of_bypass hi).imp_right (hlowest _)
  case pin =>
    intro hbypass hpin
    obtain ⟨i, hi, hlowest⟩ := found _ hpin
    exact (evaluate_of_pin (absent _ hbypass) hi).imp_right (hlowest _)
  case boost4 =>
    intro hbypass hpin hboost4
    obtain ⟨i, hi, hlowest⟩ := found _ hboost4
    exact (evaluate_of_boost4 (absent _ hbypass) (absent _ hpin) hi).imp_right (hlowest _)
  case boost2 =>
    intro hbypass hpin hboost4 hboost2
    obtain ⟨i, hi, hlowest⟩ := found _ hboost2
    exact (evaluate_of_boost2 (absent _ hbypass) (absent _ hpin) (absent _ hboost4) hi).imp_right (hlowest _)
  case none =>
    intro hbypass hpin hboost4 hboost2
    exact evaluate_of_none (absent _ hbypass) (absent _ hpin) (absent _ hboost4) (absent _ hboost2)
  case boostIs4 =>
    intro hboost4
    obtain ⟨i, hi, -⟩ := found _ hboost4
    simp [v, evaluate_boost, hi]
  case boostIs2 =>
    intro hboost4 hboost2
    obtain ⟨i, hi, -⟩ := found _ hboost2
    simp [v, evaluate_boost, absent _ hboost4, hi]
  case boostIs1 =>
    intro hboost4 hboost2
    simp [v, evaluate_boost, absent _ hboost4, absent _ hboost2]

end Sys2Proof.Machine


/-! ## The phases of a step: the Engine Mode, the marker, the sum of R204 and the Arrival List (R74, R186, R188, R204) -/

namespace Sys2Proof.Machine

/-! ### The phase of a state -/

/-- The Engine Modes and markers that go with the kind of a Checkpoint Unit operation (R186, R188). -/
def kindFits (m : EngineMode) (marker : LongMarker) : Nat → Prop
  | 0 => (marker = .none ∧ (m = .unconfigured ∨ m = .offline ∨ m = .online)) ∨ (marker = .goOffline ∧ m = .draining)
  | 1 | 2 => marker = .save ∧ (m = .offline ∨ m = .saving)
  | 3 | 4 => marker = .restore ∧ m = .restoring
  | _ => marker = .rebuild ∧ m = .rebuilding

theorem modeFits_iff_kindFits (m : EngineMode) (marker : LongMarker) (o : CuOperation) :
    modeFits m marker o ↔ kindFits m marker (opKind o) := by cases o <;> rfl

theorem opKind_eq_zero_iff (o : CuOperation) : opKind o = 0 ↔ o = .idle := by cases o <;> simp [opKind]

/-- Mode, marker and operation agree, by the operation's kind alone. -/
theorem modeConsistent_iff_kind (s : State) : modeConsistent s ↔
    (if s.lu.marker = .resetEngine then opKind s.cu.operation = 0
      else kindFits s.lu.mode s.lu.marker (opKind s.cu.operation))
      ∧ (s.lu.mode ≠ .unconfigured → 1024 ≤ s.lu.frameCount) := by
  simp only [modeConsistent, modeFits_iff_kindFits, opKind_eq_zero_iff]

/-- With the Checkpoint Unit busy, no Reset Engine is in flight and the mode and marker are those of its operation. -/
theorem kindFits_of_busy {s : State} (h : modeConsistent s) (hb : opKind s.cu.operation ≠ 0) :
    kindFits s.lu.mode s.lu.marker (opKind s.cu.operation) := by
  have := ((modeConsistent_iff_kind s).mp h).1
  split at this
  · exact absurd this hb
  · exact this

/-- With no marker the Checkpoint Unit is idle. -/
theorem idle_of_no_marker {s : State} (h : modeConsistent s) (hm : s.lu.marker = .none) :
    s.cu.operation = .idle ∧ (s.lu.mode = .unconfigured ∨ s.lu.mode = .offline ∨ s.lu.mode = .online) := by
  have hk := h.1
  rw [hm, if_neg (by simp)] at hk
  cases ho : s.cu.operation <;> simp_all [modeFits]

/-- A long transaction in flight counts 1 in the sum of R204. -/
def markerCount (m : LongMarker) : Nat := if m = .none then 0 else 1

theorem linkSum_eq_load (s : State) : linkSum s = load s + markerCount s.lu.marker := rfl

theorem markerCount_le (m : LongMarker) : markerCount m ≤ 1 := by unfold markerCount; split <;> omega

theorem markerCount_of_ne {m : LongMarker} (h : m ≠ .none) : markerCount m = 1 := if_neg h

/-! ### What a command keeps -/

/-- From one state to another a command keeps what the invariants of the Link Unit ask for: the commands to come, the agreement
of mode, marker and operation, the sum of R204 and the Arrival List; and it changes the mode by the table of R186 alone. -/
structure Lawful (c : Instr) (s t : State) : Prop where
  pending : t.pending = s.pending
  mode : modeConsistent s → t.lu.mode = s.lu.mode ∨ modeChange c s.lu.mode t.lu.mode
  consistent : modeConsistent s → modeConsistent t
  sum : modeConsistent s → linkSum s ≤ 64 → linkSum t ≤ 64
  arrival : arrivalExact s → arrivalExact t

/-- Nothing but fields outside the run part changes. -/
theorem Lawful.of_run {c : Instr} {s t : State} (h : runPart t = runPart s) : Lawful c s t := by
  have hs : Settled 0 s t := .of_run h
  have hm : t.lu.mode = s.lu.mode := congrArg RunPart.mode h
  have hk : t.lu.marker = s.lu.marker := congrArg RunPart.marker h
  have ho : opKind t.cu.operation = opKind s.cu.operation := congrArg RunPart.op h
  refine ⟨hs.pending, fun _ => .inl hm, fun hc => ?_, fun _ hl => ?_, hs.arrival⟩
  · rw [modeConsistent_iff_kind] at hc ⊢
    rwa [hm, hk, ho, hs.frameCount]
  · rw [linkSum_eq_load, hs.load, hk]
    exact hl

theorem Lawful.of_calm {c : Instr} {s t : State} (h : calmPart t = calmPart s) : Lawful c s t :=
  .of_run (runPart_of_calm h)

/-- The mode, the marker and the kind of the operation stay, and at most one completion more is counted, for which there is
room. -/
theorem Lawful.of_settled {c : Instr} {n : Nat} {s t : State} (h : Settled n s t) (hm : t.lu.mode = s.lu.mode)
    (hk : t.lu.marker = s.lu.marker) (ho : opKind t.cu.operation = opKind s.cu.operation)
    (hroom : n = 0 ∨ n = 1 ∧ linkSum s < 64) : Lawful c s t := by
  refine ⟨h.pending, fun _ => .inl hm, fun hc => ?_, fun _ hl => ?_, h.arrival⟩
  · rw [modeConsistent_iff_kind] at hc ⊢
    rwa [hm, hk, ho, h.frameCount]
  · rw [linkSum_eq_load] at *
    rw [h.load, hk]
    omega

/-- The operation goes on to a kind that goes with the same modes and markers. -/
theorem Lawful.of_goes {c : Instr} {k : Nat} {s t : State} (h : Goes k s t) (hb : opKind s.cu.operation ≠ 0)
    (hk : kindFits s.lu.mode s.lu.marker (opKind s.cu.operation) → kindFits s.lu.mode s.lu.marker k) : Lawful c s t := by
  refine ⟨h.settled.pending, fun _ => .inl h.mode, fun hc => ?_, fun _ hl => ?_, h.settled.arrival⟩
  · have hfit := kindFits_of_busy hc hb
    have hc' := (modeConsistent_iff_kind s).mp hc
    rw [modeConsistent_iff_kind, h.op, h.marker, h.mode, h.settled.frameCount]
    refine ⟨?_, hc'.2⟩
    split
    · rename_i hr
      rw [if_pos hr] at hc'
      exact absurd hc'.1 hb
    · exact hk hfit
  · rw [linkSum_eq_load, h.settled.load, h.marker]
    exact hl

/-- A long transaction that is in flight ends in a mode that goes with an idle Checkpoint Unit. -/
theorem Lawful.of_ended {c : Instr} {m : EngineMode} {s t : State} (h : Ended m s t)
    (hin : modeConsistent s → s.lu.marker ≠ .none ∧ s.lu.mode ≠ .unconfigured ∧ (m = .offline ∨ m = .online)
      ∧ (m = s.lu.mode ∨ modeChange c s.lu.mode m)) : Lawful c s t := by
  refine ⟨h.settled.pending, fun hc => ?_, fun hc => ?_, fun hc hl => ?_, h.settled.arrival⟩
  · rw [h.mode]
    exact (hin hc).2.2.2
  · obtain ⟨-, hu, hm, -⟩ := hin hc
    rw [modeConsistent_iff_kind, h.op, h.marker, h.mode, h.settled.frameCount, if_neg (by simp)]
    exact ⟨.inl ⟨rfl, .inr hm⟩, fun _ => hc.2 hu⟩
  · rw [linkSum_eq_load, h.settled.load, h.marker]
    rw [linkSum_eq_load, markerCount_of_ne (hin hc).1] at hl
    exact hl

/-! ### The Command Link and the tests of R188 -/

/-- What test 2 to 4 of R188 and the kind's own check leave of an accepted transaction. -/
structure Accepted (k : TxnKind) (check : State → Option Reason) (s : State) : Prop where
  room : linkSum s < 64
  reset : s.lu.marker = .resetEngine → passesReset k = true
  long : s.lu.marker ≠ .none → s.lu.marker ≠ .resetEngine → keptBackByLong k = false
  mode : s.lu.mode ∈ allowedModes k
  check : check s = none

theorem accepted_of_txnRefusal {k : TxnKind} {h : TxnHead} {check : State → Option Reason} {s : State}
    (hr : linkSum s < 64) (hn : txnRefusal k h check s = none) : Accepted k check s := by
  unfold txnRefusal at hn
  split at hn
  · cases hn
  split at hn
  · cases hn
  split at hn
  · cases hn
  split at hn
  · cases hn
  rename_i h1 h2 h3 h4
  refine ⟨hr, fun he => ?_, fun hx hy => ?_, ?_, hn⟩
  · simpa [inReset, he] using h1
  · simpa [longInFlight, hx, hy] using h2
  · simpa [modeAllows_iff] using h3

/-- A record that waits untaken changes nothing else. -/
theorem Lawful.waits (c : Instr) (s : State) : Lawful c s { s with untaken := s.untaken ++ [c] } :=
  ⟨rfl, fun _ => .inl rfl, id, fun _ => id, id⟩

theorem Lawful.onLink {c : Instr} {f : State → State} {s : State} (h : linkSum s < 64 → Lawful c s (f s)) :
    Lawful c s (onLink c f s) := by
  unfold Machine.onLink linkRoom
  split
  · rename_i hr
    simp only [Bool.and_eq_true, decide_eq_true_eq, Config.completionCapacity] at hr
    exact h hr.2
  · exact .waits c s

/-- One completion more than a state that settles with nothing added. -/
theorem settled_complete {s t : State} (h : Settled 0 s t) (r : Completion) : Settled 1 s (complete r t) :=
  ⟨h.frameCount, h.untaken, h.pending, by
    have := h.load
    simp only [load, complete, List.length_append, List.length_singleton, occupiedSlots] at this ⊢
    omega, h.arrival⟩

/-- An answer handed over after an effect that leaves the run part alone. -/
theorem Lawful.answer {c : Instr} {s t : State} (h : runPart t = runPart s) (r : Completion) (hroom : linkSum s < 64) :
    Lawful c s (complete r t) :=
  .of_settled (settled_complete (.of_run h) r) (congrArg RunPart.mode h) (congrArg RunPart.marker h)
    (congrArg RunPart.op h) (.inr ⟨rfl, hroom⟩)

theorem Lawful.reply {c : Instr} {s t : State} (hroom : linkSum s < 64) (h : runPart t = runPart s) (k : TxnKind)
    (head : TxnHead) (status : TxnStatus) (results : TxnResults) : Lawful c s (reply k head status results t) :=
  .answer h _ hroom

theorem Lawful.transaction {c : Instr} {k : TxnKind} {h : TxnHead} {check : State → Option Reason}
    {accept : State → State} {s t : State} (ht : transaction c k h check accept s = .next t)
    (ha : Accepted k check s → Lawful c s (accept s)) : Lawful c s t := by
  cases ht
  refine .onLink fun hroom => ?_
  unfold transact
  split
  · exact .answer (runPart_of_calm (bump_calm _ _)) _ hroom
  · rename_i hn
    exact ha (accepted_of_txnRefusal hroom hn)

/-- A long transaction begins: from no marker and an idle Checkpoint Unit to its own marker, mode and operation. -/
theorem Lawful.begins {c : Instr} {s t : State} (hs : Settled 0 s t)
    (hr : t.lu.marker ≠ .resetEngine)
    (hfit : modeConsistent s → kindFits t.lu.mode t.lu.marker (opKind t.cu.operation))
    (hc : t.lu.mode = s.lu.mode ∨ modeChange c s.lu.mode t.lu.mode) (hu : s.lu.mode ≠ .unconfigured)
    (hroom : linkSum s < 64) : Lawful c s t := by
  refine ⟨hs.pending, fun _ => hc, fun hm => ?_, fun _ _ => ?_, hs.arrival⟩
  · rw [modeConsistent_iff_kind, if_neg hr, hs.frameCount]
    exact ⟨hfit hm, fun _ => hm.2 hu⟩
  · rw [linkSum_eq_load] at hroom ⊢
    have := markerCount_le t.lu.marker
    rw [hs.load]
    omega

/-- An accepted transaction that a long one keeps back meets none in flight. -/
theorem Accepted.no_marker {k : TxnKind} {check : State → Option Reason} {s : State} (h : Accepted k check s)
    (hk : keptBackByLong k = true) (hr : passesReset k = false) : s.lu.marker = .none := by
  by_contra hx
  by_cases hy : s.lu.marker = .resetEngine
  · simp [h.reset hy] at hr
  · simp [h.long hx hy] at hk

/-! ### Taking a descriptor, and the slots -/

/-- Occupying a free slot raises the count by 1. -/
theorem occupiedSlots_occupySlot (tag : Fin 32) (c : Command) (s : State) (h : commandOf tag s = none) :
    occupiedSlots (occupySlot tag c s) = occupiedSlots s + 1 := by
  have hc : (commandOf tag (occupySlot tag c s)).isSome = true := by simp [commandOf, occupySlot]
  have := occupiedSlots_set_none tag (occupySlot tag c s) s.ct.slots[tag].useNo hc
  have hv : (occupySlot tag c s).ct.slots.set tag ⟨s.ct.slots[tag].useNo, none⟩ = s.ct.slots := by
    have hslot : (⟨s.ct.slots[tag].useNo, none⟩ : TagSlot) = s.ct.slots[tag] := by
      rw [← show s.ct.slots[tag].command = none from h]
    rw [hslot]
    simp [occupySlot]
  rw [hv] at this
  exact this.symm

theorem arrivalExact_occupySlot (tag : Fin 32) (c : Command) (s : State) (h : commandOf tag s = none)
    (ha : arrivalExact s) : arrivalExact (occupySlot tag c s) := by
  obtain ⟨hn, he⟩ := ha
  have hnot : tag ∉ s.ct.arrival := fun hx => by simpa [h] using (he tag).mp hx
  refine ⟨?_, fun x => ?_⟩
  · simpa [occupySlot, List.nodup_append, hn] using fun a ha (hx : a = tag) => hnot (hx ▸ ha)
  · have hx := he x
    by_cases hxt : x = tag
    · subst hxt; simp [occupySlot, commandOf]
    · have hv : ¬ tag.val = x.val := fun e => hxt (Fin.ext e.symm)
      simp only [commandOf, Fin.getElem_fin, occupySlot, List.mem_append, List.mem_singleton, hxt, or_false] at hx ⊢
      rw [Vector.getElem_set_ne (h := hv)]
      exact hx

/-- What a command taken does to the base part and the load: one slot more is counted. -/
theorem takeDescriptor_settled (d : Descriptor) (s : State) (h : commandOf d.tag s = none) :
    Settled 1 s (takeDescriptor d s) ∧ basePart (takeDescriptor d s) = basePart s := by
  have hcons : calmPart (consultFor d s).2 = calmPart s := by
    unfold consultFor
    split <;> simp
  have hfree : commandOf d.tag (consultFor d s).2 = none := by
    have ht : tagsOf (consultFor d s).2.ct.slots = tagsOf s.ct.slots := congrArg CalmPart.tags hcons
    rw [← Option.not_isSome_iff_eq_none, commandOf_isSome_eq, ht, ← commandOf_isSome_eq, h]
    simp
  have hopen : ∀ u, Keeps u (openCommand d u) := fun u => by
    unfold openCommand
    split
    · exact .refl u
    · split
      · exact Keeps.trans (.of_calm (splitCommand_calm _ _)) (testFlushCaches_keeps _)
      · exact .of_calm (splitCommand_calm _ _)
  have hrep : ∀ u, calmPart (reportFlushCache d (countCommand (bump .commandsTaken u))) = calmPart u := fun u => by
    have hcount : ∀ v, calmPart (countCommand v) = calmPart v := fun v => by
      unfold countCommand; split <;> simp
    unfold reportFlushCache
    split <;> simp [hcount]
  generalize hu : occupySlot d.tag (commandRecord d (consultFor d s).1 s) (consultFor d s).2 = u
  have ht : takeDescriptor d s = openCommand d (reportFlushCache d (countCommand (bump .commandsTaken u))) := by
    rw [← hu]; rfl
  have hkeep : Keeps u (takeDescriptor d s) := ht ▸ Keeps.trans (.of_calm (hrep u)) (hopen _)
  have hbase : basePart u = basePart (consultFor d s).2 := by rw [← hu]; rfl
  have hocc : Settled 1 (consultFor d s).2 u := by
    refine ⟨congrArg BasePart.frameCount hbase, congrArg BasePart.untaken hbase, congrArg BasePart.pending hbase, ?_, ?_⟩
    · have := occupiedSlots_occupySlot d.tag (commandRecord d (consultFor d s).1 s) _ hfree
      simp only [load, ← hu, this]
      rfl
    · rw [← hu]
      exact arrivalExact_occupySlot _ _ _ hfree
  refine ⟨?_, hkeep.base.trans (hbase.trans (congrArg CalmPart.base hcons))⟩
  simpa using ((Settled.of_keeps (.of_calm hcons)).trans hocc).trans (.of_keeps hkeep)

/-! ### Freeing every slot -/

/-- With every slot freed no slot is occupied and the Arrival List is empty. -/
theorem occupiedSlots_freeAllSlots (s : State) : occupiedSlots (freeAllSlots s) = 0 := by
  simp only [occupiedSlots, freeAllSlots, List.countP_eq_zero, Vector.mem_toList_iff, Vector.mem_ofFn]
  rintro _ ⟨i, rfl⟩
  simp

theorem arrivalExact_congr {s t : State} (ha : t.ct.arrival = s.ct.arrival) (hs : t.ct.slots = s.ct.slots) :
    arrivalExact t ↔ arrivalExact s := by simp only [arrivalExact, commandOf, ha, hs]

theorem freeAllSlots_base (s : State) : basePart (freeAllSlots s) = basePart s := by simp only [basePart, freeAllSlots]

theorem occupiedSlots_congr {s t : State} (hs : t.ct.slots = s.ct.slots) : occupiedSlots t = occupiedSlots s := by
  simp only [occupiedSlots, hs]

theorem arrivalExact_freeAllSlots (s : State) : arrivalExact (freeAllSlots s) := by
  refine ⟨List.nodup_nil, fun t => ?_⟩
  simp [freeAllSlots, commandOf]

end Sys2Proof.Machine


namespace Sys2Proof.Machine

/-! ### Resets -/

theorem lawful_powerOnReset (s : State) : Lawful .powerOnReset s { State.reset with freeIndex := s.freeIndex, pending := s.pending } where
  pending := rfl
  mode _ := .inr rfl
  consistent _ := ⟨.inl ⟨rfl, .inl rfl⟩, fun h => absurd rfl h⟩
  sum _ _ := by
    have : linkSum State.reset = 0 := by decide
    exact Nat.le_trans (Nat.le_of_eq this) (by omega)
  arrival _ := ⟨List.nodup_nil, fun t => by simp [State.reset, CommandTracker.initial, commandOf]⟩

theorem lawful_resetEngineEnd (s : State) : Lawful .resetEngineEnd s (if resetEnds s then endReset s else s) := by
  split
  · rename_i hr
    have hm : s.lu.marker = .resetEngine := by
      simp only [resetEnds, inReset, Bool.and_eq_true, beq_iff_eq] at hr
      exact hr.1.1
    refine ⟨rfl, fun _ => .inr rfl, fun _ => ⟨.inl ⟨rfl, .inl rfl⟩, fun h => absurd rfl h⟩, fun _ hl => ?_, fun _ => ?_⟩
    · have h0 : occupiedSlots (endReset s) = 0 := by
        have : occupiedSlots State.reset = 0 := by decide
        exact this
      have hc : (endReset s).lu.completions.length = s.lu.completions.length + 1 := by simp [endReset]
      simp only [linkSum, h0, hc, hm] at hl ⊢
      simp only [endReset, LinkUnit.initial] at hl ⊢
      simp at hl ⊢
      omega
    · exact ⟨List.nodup_nil, fun t => by simp [endReset, State.reset, CommandTracker.initial, commandOf]⟩
  · exact .of_run rfl

theorem lawful_resetEngine {h : TxnHead} {s t : State} (ht : exec (.resetEngine h) s = .next t) :
    Lawful (.resetEngine h) s t := by
  refine .transaction ht fun ha => ⟨rfl, fun _ => .inl rfl, fun hc => ⟨by simp [beginReset, freeAllSlots], hc.2⟩,
    fun _ _ => ?_, fun _ => (arrivalExact_congr rfl rfl).mpr (arrivalExact_freeAllSlots (setMarker .resetEngine h s))⟩
  have hl := ha.room
  have h0 : occupiedSlots (beginReset h s) = 0 :=
    (occupiedSlots_congr rfl).trans (occupiedSlots_freeAllSlots (setMarker .resetEngine h s))
  have hc : (beginReset h s).lu.completions = s.lu.completions := rfl
  have := markerCount_le (beginReset h s).lu.marker
  rw [linkSum_eq_load] at hl ⊢
  simp only [load, h0, hc] at hl ⊢
  omega

/-! ### Records other than control transactions -/

theorem lawful_commandDescriptor {d : Descriptor} {s t : State} (ht : exec (.commandDescriptor d) s = .next t) :
    Lawful (.commandDescriptor d) s t := by
  cases ht
  refine .onLink fun hroom => ?_
  split
  · exact .answer (runPart_of_calm (bump_calm _ _)) _ hroom
  · rename_i hn
    have hfree : commandOf d.tag s = none := by
      unfold descriptorRefusal at hn
      split at hn
      · cases hn
      split at hn
      · cases hn
      · rename_i hx
        simpa using hx
    obtain ⟨hs, hb⟩ := takeDescriptor_settled d s hfree
    exact .of_settled hs (congrArg BasePart.mode hb) (congrArg BasePart.marker hb) (congrArg BasePart.op hb)
      (.inr ⟨rfl, hroom⟩)

/-- A Link Reset frees every slot and leaves the rest of the calm part as it was. -/
theorem linkResetEffect_calm (s : State) : calmPart (linkResetEffect s) = calmPart (freeAllSlots (bump .linkResets s)) := by
  have hw : ∀ (os : List Order) (u : State), calmPart (withdrawAbsorbs os u) = calmPart u := by
    intro os u
    unfold withdrawAbsorbs
    induction os generalizing u with
    | nil => rfl
    | cons o os ih =>
      rw [List.foldl_cons, ih]
      split <;> simp
  simp [linkResetEffect, hw]

theorem lawful_linkReset {s t : State} (ht : exec .linkReset s = .next t) : Lawful .linkReset s t := by
  cases ht
  unfold onLinkInOrder
  split
  · have hk := Keeps.of_calm (linkResetEffect_calm s)
    have hb : basePart (linkResetEffect s) = basePart s :=
      hk.base.trans ((freeAllSlots_base _).trans (congrArg CalmPart.base (bump_calm .linkResets s)))
    refine ⟨congrArg BasePart.pending hb, fun _ => .inl (congrArg BasePart.mode hb), fun hc => ?_, fun _ hl => ?_,
      fun _ => hk.arrival (arrivalExact_freeAllSlots _)⟩
    · have hm : (linkResetEffect s).lu.mode = s.lu.mode := congrArg BasePart.mode hb
      have hr : (linkResetEffect s).lu.marker = s.lu.marker := congrArg BasePart.marker hb
      have ho : opKind (linkResetEffect s).cu.operation = opKind s.cu.operation := congrArg BasePart.op hb
      have hf : (linkResetEffect s).lu.frameCount = s.lu.frameCount := congrArg BasePart.frameCount hb
      rw [modeConsistent_iff_kind] at hc ⊢
      rwa [hm, hr, ho, hf]
    · have hload := hk.load
      have hm : (linkResetEffect s).lu.marker = s.lu.marker := congrArg BasePart.marker hb
      have hc : (freeAllSlots (bump .linkResets s)).lu.completions = s.lu.completions := by simp [freeAllSlots]
      rw [occupiedSlots_freeAllSlots, hc] at hload
      rw [linkSum_eq_load, load] at hl ⊢
      rw [hload, hm]
      omega
  · exact .waits _ s

theorem lawful_discardedRecord {type : Byte} {s t : State} (ht : exec (.discardedRecord type) s = .next t) :
    Lawful (.discardedRecord type) s t := by
  cases ht
  exact .onLink fun _ => .of_run rfl

theorem lawful_unknownKind {kind : Byte} {h : TxnHead} {s t : State} (ht : exec (.unknownKind kind h) s = .next t) :
    Lawful (.unknownKind kind h) s t := by
  cases ht
  exact .onLink fun hroom => .answer (runPart_of_calm (bump_calm _ _)) _ hroom

/-! ### Control transactions -/

theorem lawful_configure {h : TxnHead} {n : BitVec 32} {p : BitVec 64} {b : BitVec 32} {s t : State}
    (ht : exec (.configure h n p b) s = .next t) : Lawful (.configure h n p b) s t := by
  refine .transaction ht fun ha => ⟨rfl, fun _ => .inr ⟨?_, rfl⟩, fun _ => ⟨?_, fun _ => ?_⟩, fun _ _ => ?_, id⟩
  · simpa [allowedModes] using ha.mode
  · have hm : s.lu.marker = .none := ha.no_marker rfl rfl
    refine (if_neg ?_).mpr (.inl ⟨hm, .inr (.inl rfl)⟩)
    simp [reply, configureEffect, freshMap, hm]
  · change 1024 ≤ clampFrames n.toNat
    simp only [clampFrames, clampTo]
    omega
  · have hs : linkSum (reply .configure h (doneStatus (clampFrames n.toNat != n.toNat))
        (configured (clampFrames n.toNat) b.toNat) (configureEffect (clampFrames n.toNat) p.toNat b.toNat s))
        = linkSum s + 1 := by
      simp [linkSum_eq_load, load, reply, configureEffect, occupiedSlots, freshMap]
      omega
    have := ha.room
    exact hs ▸ this

theorem lawful_loadClass {h : TxnHead} {cls r w : Byte} {a b : Bool} {s t : State}
    (ht : exec (.loadClass h cls r w a b) s = .next t) : Lawful (.loadClass h cls r w a b) s t :=
  .transaction ht fun ha => .reply ha.room (by rfl) ..

theorem lawful_loadRange {h : TxnHead} {slot : Byte} {e : Bool} {m a : Byte} {x y : BitVec 64} {s t : State}
    (ht : exec (.loadRange h slot e m a x y) s = .next t) : Lawful (.loadRange h slot e m a x y) s t :=
  .transaction ht fun ha => .reply ha.room (by rfl) ..

theorem reportDirtyBounds_calm (id : Nat) (s : State) : calmPart (reportDirtyBounds id s) = calmPart s := by
  unfold reportDirtyBounds
  split <;> simp

theorem lawful_setParameter {h : TxnHead} {id : Byte} {v : BitVec 32} {s t : State}
    (ht : exec (.setParameter h id v) s = .next t) : Lawful (.setParameter h id v) s t := by
  refine .transaction ht fun ha => ?_
  split
  · exact .reply ha.room ((runPart_of_calm (reportDirtyBounds_calm _ _)).trans (by rfl)) ..
  · exact .of_run rfl

theorem lawful_reportSpindle {h : TxnHead} {p : Byte} {s t : State}
    (ht : exec (.reportSpindle h p) s = .next t) : Lawful (.reportSpindle h p) s t := by
  refine .transaction ht fun ha => ?_
  split
  · refine .answer (runPart_of_calm ?_) _ ha.room
    split <;> simp
  · exact .of_run rfl

theorem lawful_setPortLevel {h : TxnHead} {p l : Byte} {s t : State}
    (ht : exec (.setPortLevel h p l) s = .next t) : Lawful (.setPortLevel h p l) s t := by
  refine .transaction ht fun ha => ?_
  split
  · exact .answer (runPart_of_calm (by simp [storeLevel])) _ ha.room
  · exact .of_run rfl

theorem lawful_save {h : TxnHead} {r m : Byte} {s t : State} (ht : exec (.save h r m) s = .next t) :
    Lawful (.save h r m) s t := by
  refine .transaction ht fun ha => ?_
  have hn : s.lu.marker = .none := ha.no_marker rfl rfl
  have hmode : s.lu.mode = .offline ∨ s.lu.mode = .online := by simpa [allowedModes] using ha.mode
  have hu : s.lu.mode ≠ .unconfigured := by rintro hx; simp [hx] at hmode
  generalize ho : CuOperation.quiescing (setOf r &&& s.params.enabled) (m == 0) = o
  have hk : opKind o = 1 := by rw [← ho]; rfl
  have hb : beginSave h (setOf r) (m == 0) s = enterSaving (setMarker .save h { s with cu.operation := o }) := by
    rw [← ho]; rfl
  rw [hb]
  unfold enterSaving
  have base : ∀ mode, Settled 0 s { setMarker .save h { s with cu.operation := o } with lu.mode := mode } := fun mode =>
    ⟨rfl, rfl, rfl, rfl, id⟩
  split
  · rename_i hx
    have hx' : s.lu.mode = .online := hx
    generalize hv : engineEvent (holdForSave { setMarker .save h { s with cu.operation := o } with lu.mode := .saving }) = v
    have hc : calmPart v = calmPart { setMarker .save h { s with cu.operation := o } with lu.mode := .saving } := by
      rw [← hv, engineEvent_calm, holdForSave_calm]
    have hbase := congrArg CalmPart.base hc
    have hm : v.lu.mode = .saving := congrArg BasePart.mode hbase
    have hr : v.lu.marker = .save := congrArg BasePart.marker hbase
    have hop : opKind v.cu.operation = 1 := (congrArg BasePart.op hbase).trans hk
    refine .begins ((base _).trans (.of_keeps (.of_calm hc))) (by simp [hr]) (fun _ => ?_) (.inr ⟨hx', hm⟩) hu ha.room
    rw [hm, hr, hop]
    exact ⟨rfl, .inr rfl⟩
  · rename_i hx
    have hoff : s.lu.mode = .offline := hmode.resolve_right hx
    refine .begins ⟨rfl, rfl, rfl, rfl, id⟩ (by simp) (fun _ => ?_) (.inl rfl) hu ha.room
    have hop : opKind (setMarker .save h { s with cu.operation := o }).cu.operation = 1 := hk
    rw [hop]
    exact ⟨rfl, .inl hoff⟩

theorem lawful_restore {h : TxnHead} {r : Byte} {s t : State} (ht : exec (.restore h r) s = .next t) :
    Lawful (.restore h r) s t := by
  refine .transaction ht fun ha => ?_
  have hmode : s.lu.mode = .offline := by simpa [allowedModes] using ha.mode
  exact .begins ⟨rfl, rfl, rfl, rfl, id⟩ (by simp [beginRestore]) (fun _ => ⟨rfl, rfl⟩) (.inr ⟨hmode, rfl⟩)
    (by simp [hmode]) ha.room

theorem lawful_rebuild {h : TxnHead} {s t : State} (ht : exec (.rebuild h) s = .next t) : Lawful (.rebuild h) s t := by
  refine .transaction ht fun ha => ?_
  have hmode : s.lu.mode = .offline := by simpa [allowedModes] using ha.mode
  exact .begins ⟨rfl, rfl, rfl, rfl, id⟩ (by simp [beginRebuild]) (fun _ => ⟨rfl, rfl⟩) (.inr ⟨hmode, rfl⟩)
    (by simp [hmode]) ha.room

theorem foldl_initComponent_run (cs : List (Fin 6)) (s : State) :
    runPart (cs.foldl (fun t c => initComponent c t) s) = runPart s := by
  induction cs generalizing s with
  | nil => rfl
  | cons c cs ih => rw [List.foldl_cons, ih, initComponent_run]

theorem lawful_initializeComponents {h : TxnHead} {v : Byte} {s t : State}
    (ht : exec (.initializeComponents h v) s = .next t) : Lawful (.initializeComponents h v) s t :=
  .transaction ht fun ha => .answer ((reconcileIf_run _ _).trans (foldl_initComponent_run _ s)) _ ha.room

theorem lawful_goOnline {h : TxnHead} {s t : State} (ht : exec (.goOnline h) s = .next t) : Lawful (.goOnline h) s t := by
  refine .transaction ht fun ha => ?_
  have hn : s.lu.marker = .none := ha.no_marker rfl rfl
  have hmode : s.lu.mode = .offline := by simpa [allowedModes] using ha.mode
  generalize hv : engineEvent (compareDirty { s with lu.mode := .online }) = v
  have hc : calmPart v = calmPart { s with lu.mode := .online } := by rw [← hv, engineEvent_calm, compareDirty_calm]
  have hb := congrArg CalmPart.base hc
  have hm : v.lu.mode = .online := congrArg BasePart.mode hb
  have hr : v.lu.marker = .none := (congrArg BasePart.marker hb).trans hn
  have ho : opKind v.cu.operation = opKind s.cu.operation := congrArg BasePart.op hb
  have hf : v.lu.frameCount = s.lu.frameCount := congrArg BasePart.frameCount hb
  have hs : Settled 1 s (complete (answered (txnCode .goOnline) h false .none) v) := by
    have h0 : Settled 0 s { s with lu.mode := .online } := ⟨rfl, rfl, rfl, rfl, id⟩
    exact settled_complete (h0.trans (.of_keeps (.of_calm hc))) _
  refine ⟨hs.pending, fun _ => .inr ⟨hmode, hm⟩, fun hcon => ?_, fun _ _ => ?_, hs.arrival⟩
  · have hidle : opKind s.cu.operation = 0 := by rw [(idle_of_no_marker hcon hn).1]; rfl
    refine (modeConsistent_iff_kind _).mpr ⟨?_, fun _ => ?_⟩
    · refine (if_neg ?_).mpr ?_
      · simp [reply, hr]
      · simp only [reply, complete_lu_mode, complete_lu_marker, complete_cu, hm, hr, ho, hidle]
        exact .inl ⟨rfl, .inr (.inr rfl)⟩
    · rw [show (reply .goOnline h .done .none v).lu.frameCount = v.lu.frameCount from rfl, hf]
      exact hcon.2 (by simp [hmode])
  · have hl := ha.room
    have := hs.load
    rw [linkSum_eq_load, hn] at hl
    rw [show reply .goOnline h .done .none v = complete (answered (txnCode .goOnline) h false .none) v from rfl,
      linkSum_eq_load, this, complete_lu_marker, hr]
    omega

theorem lawful_goOffline {h : TxnHead} {s t : State} (ht : exec (.goOffline h) s = .next t) :
    Lawful (.goOffline h) s t := by
  refine .transaction ht fun ha => ?_
  have hn : s.lu.marker = .none := ha.no_marker rfl rfl
  have hmode : s.lu.mode = .online := by simpa [allowedModes] using ha.mode
  have hc : calmPart (beginDrain h s)
      = calmPart (setMarker .goOffline h { s with lu.mode := .draining, me.urgent := false }) := by simp [beginDrain]
  have hb := congrArg CalmPart.base hc
  have hm : (beginDrain h s).lu.mode = .draining := congrArg BasePart.mode hb
  have hr : (beginDrain h s).lu.marker = .goOffline := congrArg BasePart.marker hb
  have ho : opKind (beginDrain h s).cu.operation = opKind s.cu.operation := congrArg BasePart.op hb
  have h0 : Settled 0 s (setMarker .goOffline h { s with lu.mode := .draining, me.urgent := false }) :=
    ⟨rfl, rfl, rfl, rfl, id⟩
  refine .begins (h0.trans (.of_keeps (.of_calm hc))) (by simp [hr]) (fun hcon => ?_) (.inr ⟨hmode, hm⟩) (by simp [hmode])
    ha.room
  rw [hm, hr, ho, (idle_of_no_marker hcon hn).1]
  exact .inr ⟨rfl, rfl⟩

theorem prefetchAll_calm (start n : Nat) (s : State) : calmPart (prefetchAll start n s).2 = calmPart s := by
  have one : ∀ (acc : Nat × State) (g : Nat), calmPart (prefetchOne acc g).2 = calmPart acc.2 := fun acc g => by
    unfold prefetchOne
    dsimp only
    split
    · rfl
    · have hr := requestMove_calm g .directed acc.2
      split <;> rename_i hx <;> simpa [hx] using hr
  have all : ∀ (l : List Nat) (acc : Nat × State), calmPart (l.foldl prefetchOne acc).2 = calmPart acc.2 := fun l => by
    induction l with
    | nil => exact fun _ => rfl
    | cons g l ih => exact fun acc => (ih _).trans (one acc g)
  exact all _ _

theorem lawful_prefetch {h : TxnHead} {x : BitVec 64} {n : Byte} {s t : State}
    (ht : exec (.prefetch h x n) s = .next t) : Lawful (.prefetch h x n) s t :=
  .transaction ht fun ha =>
    .answer (runPart_of_calm ((engineEvent_calm _).trans (prefetchAll_calm _ _ s))) _ ha.room

theorem lawful_querySegment {h : TxnHead} {g : BitVec 64} {s t : State}
    (ht : exec (.querySegment h g) s = .next t) : Lawful (.querySegment h g) s t :=
  .transaction ht fun ha => .reply ha.room (by rfl) ..

theorem lawful_readStatus {h : TxnHead} {c : Bool} {s t : State}
    (ht : exec (.readStatus h c) s = .next t) : Lawful (.readStatus h c) s t := by
  refine .transaction ht fun ha => .answer ?_ _ ha.room
  split <;> rfl

theorem lawful_cancelBackground {h : TxnHead} {s t : State} (ht : exec (.cancelBackground h) s = .next t) :
    Lawful (.cancelBackground h) s t :=
  .transaction ht fun ha =>
    .answer (runPart_of_calm ((engineEvent_calm _).trans (stopAll_calm _ _))) _ ha.room

/-! ### The ends of waits -/

/-- A save under way ends in the mode that the table gives. -/
theorem modeAfterSave_lawful {s : State} (hcon : modeConsistent s) (hop : opKind s.cu.operation = 1 ∨ opKind s.cu.operation = 2) :
    s.lu.marker ≠ .none ∧ s.lu.mode ≠ .unconfigured
      ∧ (modeAfterSave s.lu.mode = .offline ∨ modeAfterSave s.lu.mode = .online)
      ∧ (modeAfterSave s.lu.mode = s.lu.mode ∨ s.lu.mode = .saving ∧ modeAfterSave s.lu.mode = .online) := by
  have hfit : s.lu.marker = .save ∧ (s.lu.mode = .offline ∨ s.lu.mode = .saving) := by
    obtain hop | hop := hop <;> simpa [hop, kindFits] using kindFits_of_busy hcon (by simp [hop])
  obtain ⟨hm, hx | hx⟩ := hfit <;> simp [hm, hx, modeAfterSave]

theorem lawful_quiesceEnd (s : State) : Lawful .quiesceEnd s (quiesceEndEffect s) := by
  unfold quiesceEndEffect
  split
  · rename_i r full ho
    have hk : opKind s.cu.operation = 1 := by rw [ho]; rfl
    split
    · obtain hg | he := planSave_phase r full s
      · exact .of_goes hg (by simp [hk]) (by rw [hk]; exact id)
      · exact .of_ended he fun hcon => modeAfterSave_lawful hcon (.inl hk)
    · exact .of_run rfl
  all_goals exact .of_run rfl

theorem lawful_restoreHeaderRead (s : State) : Lawful .restoreHeaderRead s (restoreHeaderReadEffect s) := by
  unfold restoreHeaderReadEffect
  split
  · rename_i r ho
    have hk : opKind s.cu.operation = 3 := by rw [ho]; rfl
    split
    · exact .of_run rfl
    · exact .of_goes (placeRequest_goes _ _ _ _ 4 (fun _ => rfl) s) (by simp [hk]) (by rw [hk]; exact id)
  all_goals exact .of_run rfl

theorem lawful_rebuildLabelReads (s : State) : Lawful .rebuildLabelReads s (rebuildLabelReadsEffect s) := by
  unfold rebuildLabelReadsEffect
  split
  · rename_i ho
    have hk : opKind s.cu.operation = 5 := by rw [ho]; rfl
    split
    · exact .of_run rfl
    by_cases hf : s.lu.frameCount = 0
    · have hr := (initComponent_run 0 { s with cu.rebuildTable := [] }).trans (rfl : _ = runPart s)
      have hf' : (initComponent 0 { s with cu.rebuildTable := [] }).lu.frameCount = 0 :=
        (congrArg RunPart.frameCount hr).trans hf
      have he : Ended .offline s (startLabelReads s) := by
        unfold startLabelReads
        dsimp only
        rw [if_pos hf']
        exact (finishRebuild_ended _ _).after hr
      refine .of_ended he fun hcon => ?_
      have hfit : s.lu.marker = .rebuild ∧ s.lu.mode = .rebuilding := by
        simpa [hk, kindFits] using kindFits_of_busy hcon (by simp [hk])
      have := hcon.2 (by simp [hfit.2])
      omega
    · exact .of_goes (startLabelReads_goes s hf) (by simp [hk]) (by rw [hk]; exact id)
  all_goals exact .of_run rfl

theorem lawful_drainEnd (s : State) : Lawful .drainEnd s (if drainEnds s then endDrain s else s) := by
  split
  · rename_i hd
    have hm : s.lu.mode = .draining ∧ s.lu.marker = .goOffline := by
      simp only [drainEnds, Bool.and_eq_true, beq_iff_eq] at hd
      exact ⟨hd.1.1.1.1.1, hd.1.1.1.1.2⟩
    refine ⟨rfl, fun _ => .inr ⟨hm.1, rfl⟩, fun hcon => ?_, fun _ hl => ?_, id⟩
    · have hidle : s.cu.operation = .idle := by
        have hfit := hcon.1
        rw [hm.1, hm.2, if_neg (by simp)] at hfit
        cases ho : s.cu.operation <;> simp_all [modeFits]
      refine ⟨?_, fun _ => hcon.2 (by simp [hm.1])⟩
      simp [endDrain, completeLong, complete, hidle, modeFits]
    · have : linkSum (endDrain s) = linkSum s := by
        simp [linkSum, endDrain, completeLong, complete, occupiedSlots, hm.2]
        omega
      rwa [this]
  · exact .of_run rfl

/-! ### Time, routing and dispatch -/

theorem millisecondTick_run (s : State) :
    runPart (quietTick (residueTick { s with timebase := s.timebase + 1 })) = runPart s :=
  (runPart_of_calm ((quietTick_calm _).trans (residueTick_calm _))).trans rfl

theorem timeAgingEffect_calm (s : State) : calmPart (timeAgingEffect s) = calmPart s := by
  unfold timeAgingEffect
  split <;> simp

theorem platterQuietEffect_calm (s : State) : calmPart (platterQuietEffect s) = calmPart s := by
  unfold platterQuietEffect
  split <;> simp

theorem takeLabel_calm (d : Dispatched) (s : State) : calmPart (takeLabel d s) = calmPart s := by
  unfold takeLabel
  split <;> simp

theorem sendOrder_calm (p : Port) (d : Dispatched) (s : State) : calmPart (sendOrder p d s) = calmPart s := by
  cases p <;> rfl

theorem joinOutstanding_calm (p : Port) (d : Dispatched) (n : Nat) (s : State) :
    calmPart (joinOutstanding p d n s) = calmPart s := by simp [joinOutstanding]

theorem reportDispatch_calm (p : Port) (d : Dispatched) (s : State) : calmPart (reportDispatch p d s) = calmPart s := by
  unfold reportDispatch
  repeat' split
  all_goals simp

theorem reportFlushStart_calm (d : Dispatched) (s : State) : calmPart (reportFlushStart d s) = calmPart s := by
  unfold reportFlushStart
  split <;> simp

theorem roomAfter_calm (p : Port) (s : State) : calmPart (roomAfter p s) = calmPart s := by cases p <;> simp [roomAfter]

theorem dispatchForeground_calm (p : Port) (s : State) : calmPart (dispatchForeground p s) = calmPart s := by
  unfold dispatchForeground
  split
  · rfl
  · simp [reportDispatch_calm, sendOrder_calm, joinOutstanding_calm, takeLabel_calm]

theorem dispatchBackground_calm (p : Port) (i : Nat) (s : State) : calmPart (dispatchBackground p i s) = calmPart s := by
  unfold dispatchBackground
  split
  · rfl
  · simp [roomAfter_calm, reportFlushStart_calm, reportDispatch_calm, sendOrder_calm, joinOutstanding_calm,
      takeLabel_calm]

theorem dispatchLoop_calm (p : Port) (fuel : Nat) (s : State) : calmPart (dispatchLoop p fuel s) = calmPart s := by
  induction fuel generalizing s with
  | zero => rfl
  | succ n ih =>
    unfold dispatchLoop
    split
    · rfl
    split
    · rfl
    · exact dispatchForeground_calm p s
    · split
      · rw [ih, engineEvent_calm, dropUpdate, giveRoom_calm]
        rfl
      · exact dispatchBackground_calm p _ s

/-! ### Results and the Response Link -/

theorem reportResult_calm (p : Port) (d : Dispatched) (s : State) : calmPart (reportResult p d s) = calmPart s := by
  unfold reportResult
  repeat' split
  all_goals simp

theorem Lawful.trans_calm {c : Instr} {s t u v : State} (hs : calmPart t = calmPart s) (h : Lawful c t u)
    (hv : calmPart v = calmPart u) : Lawful c s v := by
  have a : Lawful c s t := .of_calm hs
  have b : Lawful c u v := .of_calm hv
  have hm : t.lu.mode = s.lu.mode := congrArg (BasePart.mode ∘ CalmPart.base) hs
  have hm' : v.lu.mode = u.lu.mode := congrArg (BasePart.mode ∘ CalmPart.base) hv
  refine ⟨b.pending.trans (h.pending.trans a.pending), fun hc => ?_, fun hc => b.consistent (h.consistent (a.consistent hc)),
    fun hc hl => b.sum (h.consistent (a.consistent hc)) (h.sum (a.consistent hc) (a.sum hc hl)),
    fun ha => b.arrival (h.arrival (a.arrival ha))⟩
  rw [hm', ← hm]
  exact h.mode (a.consistent hc)

theorem Lawful.of_keeps {c : Instr} {s t : State} (h : Keeps s t) : Lawful c s t :=
  .of_settled (.of_keeps h) (congrArg BasePart.mode h.base) (congrArg BasePart.marker h.base)
    (congrArg BasePart.op h.base) (.inl rfl)

theorem lawful_handToOrigin {p : Port} {r : OrderResult} (d : Dispatched) (s : State) :
    Lawful (.orderResult p r) s (handToOrigin d r s) := by
  unfold handToOrigin
  split
  · exact .of_keeps (pieceResult_keeps _ _ _ _ _ _ _)
  · exact .of_calm (chunkResult_calm _ _ _ _ _)
  · exact .of_calm (trimResult_calm _ _ _)
  · exact .of_run rfl
  · rename_i f _
    obtain h | ⟨hk, hg | he⟩ := labelResult_phase f (outcomeOk r) r.label s
    · rw [h]
      exact .of_run rfl
    · exact .of_goes hg (by simp [hk]) (by rw [hk]; exact id)
    · refine .of_ended he fun hcon => ?_
      have hfit : s.lu.marker = .rebuild ∧ s.lu.mode = .rebuilding := by
        simpa [hk, kindFits] using kindFits_of_busy hcon (by simp [hk])
      simp [hfit.1, hfit.2, modeChange]
  · obtain h | ⟨hk, hg | he⟩ | ⟨hk, hg | he⟩ := checkpointResult_phase d.order.op (outcomeOk r) r.buffer s
    · exact .of_run h
    · exact .of_goes hg (by simp [hk]) (by rw [hk]; exact id)
    · exact .of_ended he fun hcon => (modeAfterSave_lawful hcon (.inr hk)).imp_right fun h => h.imp_right fun h =>
        h.imp_right fun h => h.imp_right .inl
    · exact .of_goes hg (by simp [hk]) (by rw [hk]; exact id)
    · refine .of_ended he fun hcon => ?_
      have hfit : s.lu.marker = .restore ∧ s.lu.mode = .restoring := by
        simpa [hk, kindFits] using kindFits_of_busy hcon (by simp [hk])
      simp [hfit.1, hfit.2, modeChange]

theorem lawful_orderResult (p : Port) (r : OrderResult) (s : State) : Lawful (.orderResult p r) s (takeResult p r s) := by
  unfold takeResult
  split
  · exact .of_run rfl
  · rename_i d _
    have hleave : calmPart (leaveOutstanding p r.id s) = calmPart s := by simp [leaveOutstanding]
    dsimp only
    split
    · exact .of_calm hleave
    · exact .trans_calm ((reportResult_calm p d _).trans hleave) (lawful_handToOrigin d _) (engineEvent_calm _)

theorem postDeferred_calm (s : State) : calmPart (postDeferred s) = calmPart s := by
  unfold postDeferred
  split <;> simp

theorem sendNotice_run (n : Notice) (rest : List Notice) (s : State) : runPart (sendNotice n rest s) = runPart s :=
  (runPart_of_calm ((postDeferred_calm _).trans (bump_calm _ _))).trans rfl

theorem lawful_responseLinkSend (s : State) : Lawful .responseLinkSend s (sendRecord s) := by
  unfold sendRecord
  split
  · rename_i c cs hc
    refine ⟨rfl, fun _ => .inl rfl, id, fun _ hl => ?_, id⟩
    have : linkSum (sendCompletion c cs s) + 1 = linkSum s := by
      simp only [linkSum_eq_load, load, hc, List.length_cons, sendCompletion, occupiedSlots]
      omega
    omega
  · exact .of_run (sendNotice_run _ _ s)
  · exact .of_run rfl

/-! ### Every command -/

/-- What every command keeps. -/
theorem exec_lawful {c : Instr} {s t : State} (h : exec c s = .next t) : Lawful c s t := by
  cases c
  case powerOnReset => cases h; exact lawful_powerOnReset s
  case commandDescriptor => exact lawful_commandDescriptor h
  case linkReset => exact lawful_linkReset h
  case discardedRecord => exact lawful_discardedRecord h
  case unknownKind => exact lawful_unknownKind h
  case configure => exact lawful_configure h
  case loadClass => exact lawful_loadClass h
  case loadRange => exact lawful_loadRange h
  case setParameter => exact lawful_setParameter h
  case reportSpindle => exact lawful_reportSpindle h
  case setPortLevel => exact lawful_setPortLevel h
  case save => exact lawful_save h
  case quiesceEnd => cases h; exact lawful_quiesceEnd s
  case restore => exact lawful_restore h
  case restoreHeaderRead => cases h; exact lawful_restoreHeaderRead s
  case rebuild => exact lawful_rebuild h
  case rebuildLabelReads => cases h; exact lawful_rebuildLabelReads s
  case initializeComponents => exact lawful_initializeComponents h
  case goOnline => exact lawful_goOnline h
  case goOffline => exact lawful_goOffline h
  case drainEnd => cases h; exact lawful_drainEnd s
  case prefetch => exact lawful_prefetch h
  case querySegment => exact lawful_querySegment h
  case readStatus => exact lawful_readStatus h
  case cancelBackground => exact lawful_cancelBackground h
  case resetEngine => exact lawful_resetEngine h
  case resetEngineEnd => cases h; exact lawful_resetEngineEnd s
  case millisecondTick =>
    cases h
    exact .of_run (millisecondTick_run s)
  case timeAgingEvent => cases h; exact .of_calm (timeAgingEffect_calm s)
  case platterQuiet => cases h; exact .of_calm (platterQuietEffect_calm s)
  case routingPass =>
    cases h
    refine .of_calm ?_
    split <;> simp
  case orderDispatch p => cases h; exact .of_calm (dispatchLoop_calm p _ s)
  case orderResult p r => cases h; exact lawful_orderResult p r s
  case responseLinkSend => cases h; exact lawful_responseLinkSend s

/-- Every command answers a next state. -/
theorem exec_answers (c : Instr) (s : State) : ∃ t, exec c s = .next t := by
  cases c <;> exact ⟨_, rfl⟩

/-- A step is a command's effect on a state that differs in the commands to come and the records untaken alone, and leaves
its state with some records untaken more; or it idles. -/
theorem step_cases {s t : State} (h : step s = .next t) :
    t = s ∨ ∃ c q u rest v, exec c { s with pending := q, untaken := u } = .next v
      ∧ t = { v with untaken := v.untaken ++ rest } := by
  unfold step at h
  split at h
  · rename_i c q _
    exact .inr ⟨c, q, s.untaken, [], t, h, by simp⟩
  · rename_i hp
    split at h
    · rename_i c rest _
      obtain ⟨v, hv⟩ := exec_answers c { s with untaken := [] }
      rw [takeUntaken, hv] at h
      cases h
      exact .inr ⟨c, s.pending, [], rest, v, hv, rfl⟩
    · cases h
      exact .inl rfl

/-- Settles O3: no command stops the machine, and none reaches for the queue of commands. -/
theorem everyCommandAnswers : Obligations.EveryCommandAnswers := by
  intro c s
  obtain ⟨t, ht⟩ := exec_answers c s
  exact ⟨t, ht, (exec_lawful ht).pending⟩

/-- Settles O53, command by command. -/
theorem modeStaysConsistent : Obligations.ModeStaysConsistent := by
  intro s t hc h
  obtain rfl | ⟨c, q, u, rest, v, hv, rfl⟩ := step_cases h
  · exact hc
  · exact (exec_lawful hv).consistent hc

/-- Settles O54, command by command. -/
theorem modeChangesByTable : Obligations.ModeChangesByTable := fun _ _ _ hc h => (exec_lawful h).mode hc

/-- Settles O55: a completion takes the place of a slot or of the marker in the sum, or is handed over where there is room. -/
theorem completionQueueNeverOverflows : Obligations.CompletionQueueNeverOverflows := by
  intro s t hc hl h
  obtain rfl | ⟨c, q, u, rest, v, hv, rfl⟩ := step_cases h
  · exact hl
  · exact (exec_lawful hv).sum hc hl

/-- Settles O56: a tag joins the Arrival List as its slot is occupied and leaves it as the slot is freed. -/
theorem arrivalListStaysExact : Obligations.ArrivalListStaysExact := by
  intro s t ha h
  obtain rfl | ⟨c, q, u, rest, v, hv, rfl⟩ := step_cases h
  · exact ha
  · exact (exec_lawful hv).arrival ha

end Sys2Proof.Machine


/-! ## The machine and its resets (R186, R200, R206) -/

namespace Sys2Proof.Machine

/-- Settles O1: by the definition of a step. -/
theorem stepTakesFrontCommand : Obligations.StepTakesFrontCommand := by
  intro c s
  cases c <;> rfl

/-- Settles O2: each event tests what it waits for before it does anything. -/
theorem idleStepsAndEventsNotDue : Obligations.IdleStepsAndEventsNotDue := by
  intro s
  refine ⟨fun hp hu => ?_, fun c rest t hp hu ht => ?_, fun hm => ?_, fun ho => ⟨?_, ?_, ?_⟩, fun hm => ?_, fun h => ?_,
    fun h => ?_, fun h => ?_, fun h => ?_, fun hc hn => ?_⟩
  · simp only [step, hp, hu]
  · have hs : { s with untaken := [], pending := [] } = { s with untaken := [] } := by rw [← hp]
    simp only [step, hp, hu, takeUntaken, hs, ht]
  · simp [exec, execDrainEnd, drainEnds, hm]
  · simp [exec, execQuiesceEnd, quiesceEndEffect, ho]
  · simp [exec, execRestoreHeaderRead, restoreHeaderReadEffect, ho]
  · simp [exec, execRebuildLabelReads, rebuildLabelReadsEffect, ho]
  · simp [exec, execResetEngineEnd, resetEnds, inReset, hm]
  · simp [exec, execTimeAgingEvent, timeAgingEffect, h]
  · simp [exec, execPlatterQuiet, platterQuietEffect, quietDue, h]
  · simp [exec, execRoutingPass, passMade, h]
  · simp [exec, execOrderDispatch, dispatchOne, dispatchLoop, mayDispatch, gateOpen, h]
  · simp [exec, execResponseLinkSend, sendRecord, hc, hn]

/-- Settles O4: every field of the power-on state is written out in the reset tables. -/
theorem powerOnReset : Obligations.PowerOnReset := by
  intro s
  refine ⟨_, rfl, ?_⟩
  simp [State.reset, LinkUnit.initial, CommandTracker.initial, SegmentMap.initial, HeatUnit.initial,
    RangeComparator.initial, RangeSlot.initial, ClassRec.initial, StreamRec.initial, Params.defaults,
    MigrationEngine.initial, Scheduler.initial, PlatterMonitor.initial, CheckpointUnit.initial, Header.initial]

/-- Settles O5. -/
theorem resetEngineTaken : Obligations.ResetEngineTaken := by
  intro h s hm
  exact transaction_accepted hm (.resetEngine h) rfl (beginReset h)

/-- Settles O6. -/
theorem resetEngineEnds : Obligations.ResetEngineEnds := by
  intro s hm hf hp
  have hr : resetEnds s = true := by simp [resetEnds, inReset, hm, hf, hp]
  simp only [exec, execResetEngineEnd, hr, if_true]
  rfl

/-! ## The Command Link: records that wait, are refused or are not known (R70, R204, R207) -/

/-- Settles O7: what arrives on the Command Link other than a Link Reset goes through `onLink`. -/
theorem recordsWaitUntaken : Obligations.RecordsWaitUntaken := by
  refine ⟨fun c s he hc hn => ?_, fun s hu => ?_⟩
  · have wait : ∀ (f : State → State), onLink c f s = { s with untaken := s.untaken ++ [c] } := fun f =>
      onLink_waits hn c f
    cases ht : txnOf c with
    | some p =>
      obtain ⟨check, accept, hx⟩ := exec_transaction (c := c) (k := p.1) (h := p.2) ht s
      rw [hx, transaction, wait]
    | none =>
      cases c <;> simp only [txnOf, reduceCtorEq, encodeLink, Option.isSome_none, ne_eq, not_true_eq_false,
        Bool.false_eq_true] at ht he hc
      all_goals exact congrArg Host.Outcome.next (wait _)
  · simp [exec, execLinkReset, onLinkInOrder, hu]

/-- A descriptor met when the link is ready is refused or taken. -/
theorem exec_commandDescriptor {s : State} (h : linkReady s) (d : Descriptor) :
    exec (.commandDescriptor d) s = .next (match descriptorRefusal d s with
      | some status => refuseDescriptor d status s
      | none => takeDescriptor d s) := by
  exact congrArg Host.Outcome.next (onLink_ready h _ _)

theorem exec_commandDescriptor_refused {s : State} (h : linkReady s) {d : Descriptor} {status : CommandStatus}
    (hr : descriptorRefusal d s = some status) :
    exec (.commandDescriptor d) s = .next (afterDescriptorRefusal d status s) := by
  rw [exec_commandDescriptor h, hr]
  rfl

theorem exec_commandDescriptor_taken {s : State} (h : linkReady s) {d : Descriptor} (hr : descriptorRefusal d s = none) :
    exec (.commandDescriptor d) s = .next (takeDescriptor d s) := by
  rw [exec_commandDescriptor h, hr]

/-- Settles O8: the Engine Mode is the first test of a descriptor. -/
theorem descriptorRefusedNotOnline : Obligations.DescriptorRefusedNotOnline := by
  intro d s h hm
  refine exec_commandDescriptor_refused h ?_
  obtain hm | ⟨h1, h2⟩ := hm
  · simp [descriptorRefusal, inReset, hm]
  · simp [descriptorRefusal, h1, h2]

/-- A descriptor that the Engine Mode admits meets the tests of R71 in their order. -/
theorem descriptorRefusal_admitted {s : State} (hr : s.lu.marker ≠ .resetEngine)
    (hm : s.lu.mode = .online ∨ s.lu.mode = .saving) (d : Descriptor) : descriptorRefusal d s =
      if (commandOf d.tag s).isSome then some .tagInUse
      else if d.kind ≠ .flushCache ∧ (d.length.toNat = 0 ∨ 8192 < d.length.toNat) then some .lengthInvalid
      else if d.kind ≠ .flushCache ∧ s.lu.platterSectors < d.start.toNat + d.length.toNat then some .addressRange
      else none := by
  have ha : (inReset s || !(s.lu.mode == .online || s.lu.mode == .saving)) = false := by
    obtain hm | hm := hm <;> simp [inReset, hr, hm]
  unfold descriptorRefusal
  rw [ha]
  simp

/-- A descriptor that meets none of the tests. -/
theorem descriptorRefusal_none {s : State} (hr : s.lu.marker ≠ .resetEngine)
    (hm : s.lu.mode = .online ∨ s.lu.mode = .saving) {d : Descriptor} (ht : commandOf d.tag s = none)
    (hd : d.kind = .flushCache ∨ (d.length.toNat ≠ 0 ∧ d.length.toNat ≤ 8192
      ∧ d.start.toNat + d.length.toNat ≤ s.lu.platterSectors)) : descriptorRefusal d s = none := by
  rw [descriptorRefusal_admitted hr hm, ht]
  obtain hd | ⟨h0, h1, h2⟩ := hd
  · simp [hd]
  · rw [if_neg (by simp), if_neg (by omega), if_neg (by omega)]

/-- Settles O14. -/
theorem unknownRecords : Obligations.UnknownRecords := by
  intro s h
  refine ⟨fun type => ?_, fun kind hd => ?_⟩
  · simp only [exec, execDiscardedRecord, onLink_ready h]
  · simp only [exec, execUnknownKind, onLink_ready h]
    rfl

/-! ## Control transactions: tests, Configure, tables and parameters (R188 to R191) -/

/-- Settles O15: the tests of R188 stand in `txnRefusal` in their order. -/
theorem transactionTestsInOrder : Obligations.TransactionTestsInOrder := by
  intro c k h s hc hl refused reset long
  obtain ⟨check, accept, hx⟩ := exec_transaction hc s
  have hreset : (inReset s && !passesReset k) = true ↔ reset := by simp [inReset, passesReset_iff, reset]
  have hlong : (longInFlight s && keptBackByLong k) = true ↔ long := by
    simp [longInFlight, keptBackByLong_iff, long, and_assoc]
  have hr : ∀ r, txnRefusal k h check s = some r → refused r := fun r hr => by
    simp only [refused, hx, transaction, onLink_ready hl, transact, hr]
    rfl
  refine ⟨fun hb => hr _ ?_, fun h1 h2 h3 => hr _ ?_, fun h1 h2 h3 h4 => hr _ ?_⟩
  · unfold txnRefusal
    split
    · rfl
    · rename_i h1
      rw [if_pos (hlong.mpr (hb.resolve_left (mt hreset.mpr h1)))]
  · rw [txnRefusal, if_neg (mt hreset.mp h1), if_neg (mt hlong.mp h2), if_pos (by simpa [modeAllows_iff] using h3)]
  · rw [txnRefusal, if_neg (mt hreset.mp h1), if_neg (mt hlong.mp h2), if_neg (by simpa [modeAllows_iff] using h3),
      if_pos (by simp [h4])]

/-- Settles O16. -/
theorem configure : Obligations.Configure := by
  intro h n p b s hm held inRange f layout
  have hrange : configureArguments p.toNat b.toNat = true ↔ inRange := by
    simp [configureArguments, inRange, and_assoc]
  have hcheck : checkConfigure p.toNat b.toNat s = if held then some .busy else badUnless (configureArguments p.toNat b.toNat) := by
    simp [checkConfigure, held]
  refine ⟨fun hh => ?_, fun hh hr => ?_, fun hh hr => ?_⟩
  · exact transaction_refused hm (.configure h n p b) (by rw [hcheck, if_pos hh]) _
  · exact transaction_refused hm (.configure h n p b) (by rw [hcheck, if_neg hh, badUnless, if_neg (mt hrange.mp hr)]) _
  · refine (transaction_accepted hm (.configure h n p b) (by rw [hcheck, if_neg hh, badUnless, if_pos (hrange.mpr hr)]) _).trans ?_
    have hand : ∀ v : CompSet, compMinus v (compBit 0) = v &&& 0b111110 := by decide
    have hor : ∀ v : CompSet, v ||| compBit 0 ||| 0b001000 = v ||| 0b001001 := by decide
    have hbit : compBit 3 = 0b001000 := rfl
    simp only [reply, complete, answered, withCompletion, configureEffect, touch, reportInitialized, freshMap, configured,
      Params.derive, snapshotTaken, hand, hor, hbit, doneStatus, txnCode, clampFrames, clampTo]
    rfl

/-- Refusals and acceptances of Load Class and Load Range both read the arguments alone. -/
theorem badUnless_of_false {b : Bool} (h : b = false) : badUnless b = some .badArgument := by simp [badUnless, h]

theorem badUnless_of_true {b : Bool} (h : b = true) : badUnless b = none := by simp [badUnless, h]

theorem matchModeOf_eq_none {b : Byte} (h : 2 ≤ b.toNat) : matchModeOf b = none := by
  revert h
  revert b
  decide

theorem rangeActionOf_eq_none {b : Byte} (h : 4 ≤ b.toNat) : rangeActionOf b = none := by
  revert h
  revert b
  decide

/-- A byte with the value of another is that byte. -/
theorem byte_eq {b : Byte} {n : Nat} (h : b.toNat = n) : b = BitVec.ofNat 8 n := by
  rw [← h, BitVec.ofNat_toNat, BitVec.setWidth_eq]

theorem matchModeOf_named {b : Byte} {m : MatchMode} (h : (b.toNat, m) ∈ [(0, MatchMode.inside), (1, .outside)]) :
    matchModeOf b = some m := by
  simp only [List.mem_cons, Prod.mk.injEq, List.not_mem_nil, or_false] at h
  obtain ⟨h, rfl⟩ | ⟨h, rfl⟩ := h <;> rw [byte_eq h] <;> rfl

theorem rangeActionOf_named {b : Byte} {a : RangeAction}
    (h : (b.toNat, a) ∈ [(0, RangeAction.pin), (1, .bypass), (2, .boost2), (3, .boost4)]) :
    rangeActionOf b = some a := by
  simp only [List.mem_cons, Prod.mk.injEq, List.not_mem_nil, or_false] at h
  obtain ⟨h, rfl⟩ | ⟨h, rfl⟩ | ⟨h, rfl⟩ | ⟨h, rfl⟩ := h <;> rw [byte_eq h] <;> rfl

/-- Settles O17: the two checks read the arguments alone, and what is stored is one event for its component. -/
theorem loadClassAndLoadRange : Obligations.LoadClassAndLoadRange := by
  intro h s
  refine ⟨fun hm cls r w sc np => ⟨fun hc => ?_, fun hc => ?_⟩, fun hm slot en mode action start stop => ⟨fun hx => ?_,
    fun m a hslot hmode haction hle hlt => ?_⟩⟩
  · exact transaction_refused hm _ (badUnless_of_false (by simpa using hc)) _
  · exact transaction_accepted hm _ (badUnless_of_true (by simpa using hc)) _
  · refine transaction_refused hm _ (badUnless_of_false ?_) _
    obtain hx | hx | hx | hx | hx := hx
    · simp [Nat.not_lt.mpr hx]
    · simp [matchModeOf_eq_none hx]
    · simp [rangeActionOf_eq_none hx]
    · simp [Nat.not_le.mpr hx]
    · simp [Nat.not_lt.mpr hx]
  · have hm' := matchModeOf_named hmode
    have ha' := rangeActionOf_named haction
    refine (transaction_accepted hm _ (badUnless_of_true ?_) _).trans ?_
    · simp [hslot, hm', ha', hle, hlt]
    · simp only [hm', ha', Option.getD_some]
      rfl

/-! ### What Set Parameter stores (R191) -/

/-- What storing one value comes to: the parameters with that value at its place, answered with the value, as sent or not. -/
structure Stored.Puts (r : Stored) (id v w : Nat) (p : Params) : Prop where
  results : r.results = .value w
  asSent : r.asSent = (w == v)
  values : parameterValues r.params = (parameterValues p).set (id - 1) w

theorem length_parameterValues (p : Params) : (parameterValues p).length = 24 := by simp [parameterValues]

theorem Stored.Puts.value {r : Stored} {id v w : Nat} {p : Params} (h : r.Puts id v w p) (hid : 1 ≤ id ∧ id ≤ 24) :
    parameterValue id r.params = w := by
  have : id - 1 < 24 := by omega
  simp [parameterValue, h.values, List.getD_eq_getElem?_getD, length_parameterValues, this]

theorem Stored.Puts.others {r : Stored} {id v w : Nat} {p : Params} (h : r.Puts id v w p) (hid : 1 ≤ id) {j : Nat}
    (hj : 1 ≤ j) (hne : j ≠ id) : parameterValue j r.params = parameterValue j p := by
  have : id - 1 ≠ j - 1 := by omega
  simp [parameterValue, h.values, List.getD_eq_getElem?_getD, List.getElem?_set_ne this]

theorem storeNumber_puts {lo hi id v : Nat} {p : Params} {put : Nat → Params}
    (h : ∀ x, parameterValues (put x) = (parameterValues p).set (id - 1) x) :
    (storeNumber lo hi v put).Puts id v (clampTo lo hi v) p := ⟨rfl, rfl, h _⟩

theorem storeSet_puts {w id v : Nat} {p : Params} {put : BitVec w → Params}
    (h : ∀ x, parameterValues (put x) = (parameterValues p).set (id - 1) x.toNat) :
    (storeSet w v put).Puts id v (v % 2 ^ w) p := ⟨rfl, rfl, (h _).trans (by rw [BitVec.toNat_ofNat])⟩

theorem storeSkip_puts (k : Fin 8) (v : Nat) (p : Params) : (storeSkip k v p).Puts (k.val + 16) v (clampTo 0 15 v) p := by
  refine storeNumber_puts fun x => ?_
  have h : k.val + 16 - 1 = 15 + k.val := by omega
  simp only [parameterValues, h, Vector.toList_set]
  rw [List.set_append_left _ _ (by simp; omega), List.set_append_right _ _ (by simp)]
  simp

theorem storeEpochSource_puts (v : Nat) (p : Params) : (storeEpochSource v p).Puts 7 v (if v ≤ 2 then v else 1) p := by
  have put : ∀ c, parameterValues { p with epochSource := c } = (parameterValues p).set 6 (epochSourceCode c) :=
    fun _ => rfl
  by_cases hv : v ≤ 2
  · obtain rfl | rfl | rfl : v = 0 ∨ v = 1 ∨ v = 2 := by omega
    all_goals exact ⟨rfl, rfl, put _⟩
  · have : epochSourceOf v = none := by simp only [epochSourceOf]; rw [if_neg, if_neg, if_neg] <;> omega
    simp only [storeEpochSource, this, if_neg hv]
    exact ⟨rfl, by simp; omega, put _⟩

theorem storeDecayMode_puts (v : Nat) (p : Params) : (storeDecayMode v p).Puts 9 v (if v ≤ 1 then v else 0) p := by
  have put : ∀ c, parameterValues { p with decayMode := c } = (parameterValues p).set 8 (decayModeCode c) := fun _ => rfl
  by_cases hv : v ≤ 1
  · obtain rfl | rfl : v = 0 ∨ v = 1 := by omega
    all_goals exact ⟨rfl, rfl, put _⟩
  · have : decayModeOf v = none := by simp only [decayModeOf]; rw [if_neg, if_neg] <;> omega
    simp only [storeDecayMode, this, if_neg hv]
    exact ⟨rfl, by simp; omega, put _⟩

/-- A parameter other than DirtyHigh and DirtyLow is stored as its row of R191 says. -/
theorem storeParameter_puts {n id v w : Nat} (p : Params) (h : storedNumber n id v = some w) :
    (1 ≤ id ∧ id ≤ 24 ∧ id ≠ 5 ∧ id ≠ 6) ∧ ∃ r, storeParameter n id v p = some r ∧ r.Puts id v w p := by
  have zero : ∀ hi, clampTo 0 hi v = min hi v := fun hi => Nat.zero_max _
  have enabled : ∀ x : CompSet, parameterValues { p with enabled := x } = (parameterValues p).set 23 x.toNat := fun x => by
    simp only [parameterValues]
    rw [List.set_append_right _ _ (by simp)]
    simp
  unfold storedNumber at h
  split at h <;> cases h
  case h_1 => exact ⟨by omega, _, rfl, storeNumber_puts fun _ => rfl⟩
  case h_2 => exact ⟨by omega, _, rfl, storeNumber_puts fun _ => rfl⟩
  case h_3 => exact ⟨by omega, _, rfl, zero _ ▸ storeNumber_puts fun _ => rfl⟩
  case h_4 => exact ⟨by omega, _, rfl, storeNumber_puts fun _ => rfl⟩
  case h_5 => exact ⟨by omega, _, rfl, zero _ ▸ storeNumber_puts fun _ => rfl⟩
  case h_6 => exact ⟨by omega, _, rfl, storeEpochSource_puts v p⟩
  case h_7 => exact ⟨by omega, _, rfl, storeDecayMode_puts v p⟩
  case h_8 => exact ⟨by omega, _, rfl, storeNumber_puts fun _ => rfl⟩
  case h_9 => exact ⟨by omega, _, rfl, storeSet_puts fun _ => rfl⟩
  case h_10 => exact ⟨by omega, _, rfl, storeNumber_puts fun _ => rfl⟩
  case h_11 => exact ⟨by omega, _, rfl, storeNumber_puts fun _ => rfl⟩
  case h_12 => exact ⟨by omega, _, rfl, storeSet_puts fun _ => rfl⟩
  case h_13 => exact ⟨by omega, _, rfl, storeNumber_puts fun _ => rfl⟩
  case h_14 => exact ⟨by omega, _, rfl, zero _ ▸ storeSkip_puts 0 v p⟩
  case h_15 => exact ⟨by omega, _, rfl, zero _ ▸ storeSkip_puts 1 v p⟩
  case h_16 => exact ⟨by omega, _, rfl, zero _ ▸ storeSkip_puts 2 v p⟩
  case h_17 => exact ⟨by omega, _, rfl, zero _ ▸ storeSkip_puts 3 v p⟩
  case h_18 => exact ⟨by omega, _, rfl, zero _ ▸ storeSkip_puts 4 v p⟩
  case h_19 => exact ⟨by omega, _, rfl, zero _ ▸ storeSkip_puts 5 v p⟩
  case h_20 => exact ⟨by omega, _, rfl, zero _ ▸ storeSkip_puts 6 v p⟩
  case h_21 => exact ⟨by omega, _, rfl, zero _ ▸ storeSkip_puts 7 v p⟩
  case h_22 => exact ⟨by omega, _, rfl, storeSet_puts enabled⟩

/-- Settles O18. -/
theorem setParameterStores : Obligations.SetParameterStores := by
  intro h id v s hm
  refine ⟨fun hid => ?_, fun w hw => ?_⟩
  · refine transaction_refused hm _ (badUnless_of_false ?_) _
    have : storeParameter s.lu.frameCount id.toNat v.toNat s.params = none := by
      unfold storeParameter
      split <;> first | omega | rfl
    rw [this]
    rfl
  · obtain ⟨⟨h1, h24, h5, h6⟩, r, hr, hp⟩ := storeParameter_puts s.params hw
    refine ⟨r.params, hp.value ⟨h1, h24⟩, fun j hj _ hne => hp.others h1 hj hne, ?_⟩
    refine (transaction_accepted hm _ (badUnless_of_true (by rw [hr]; rfl)) _).trans ?_
    simp only [hr, reportDirtyBounds, h5, h6, hp.results, hp.asSent]
    simp [reply, complete, answered, withCompletion, doneStatus, txnCode, bne]

/-- What the calm part of a state after an answer says of its fields. -/
theorem answered_fields {r : Completion} {s t : State} (h : calmPart t = calmPart s) :
    (complete r t).params = s.params ∧ (complete r t).lu.completions = s.lu.completions ++ [r]
      ∧ (complete r t).rc = s.rc ∧ (complete r t).lu.mode = s.lu.mode ∧ (complete r t).lu.marker = s.lu.marker
      ∧ (complete r t).lu.frameCount = s.lu.frameCount ∧ (complete r t).ct.arrival = s.ct.arrival :=
  ⟨congrArg (BasePart.params ∘ CalmPart.base) h, congrArg (· ++ [r]) (congrArg CalmPart.completions h),
    congrArg (BasePart.rc ∘ CalmPart.base) h, congrArg (BasePart.mode ∘ CalmPart.base) h,
    congrArg (BasePart.marker ∘ CalmPart.base) h, congrArg (BasePart.frameCount ∘ CalmPart.base) h,
    congrArg CalmPart.arrival h⟩

/-- Set Parameter of an id that names a parameter, with the reports that follow. -/
theorem setParameter_stores {h : TxnHead} {id : Byte} {v : BitVec 32} {s : State} {r : Stored}
    (hm : mayTake .setParameter h s) (hr : storeParameter s.lu.frameCount id.toNat v.toNat s.params = some r) :
    exec (.setParameter h id v) s = .next (complete (answered 4 h (!r.asSent) r.results)
      (reportDirtyBounds id.toNat (touch 3 { s with params := r.params }))) := by
  refine (transaction_accepted hm _ (badUnless_of_true (by rw [hr]; rfl)) _).trans ?_
  simp only [hr]
  rfl

/-- Settles O19: DirtyHigh in the three cases of its clamp, DirtyLow in one; the engine's event that follows is calm. -/
theorem setParameterDirtyBounds : Obligations.SetParameterDirtyBounds := by
  intro h v s hm
  refine ⟨?_, ?_⟩
  · intro high low kept
    refine ⟨_, setParameter_stores hm (id := 5) (r := storeDirtyHigh s.lu.frameCount v.toNat s.params) rfl, ?_⟩
    have hhigh : clampTo 1 s.lu.frameCount v.toNat = high := rfl
    have hstored : storeDirtyHigh s.lu.frameCount v.toNat s.params
        = ⟨{ s.params with dirtyHigh := high, dirtyLow := low },
            if kept then .value high else .dirtyPair high low, decide kept⟩ := by
      unfold storeDirtyHigh
      simp only [hhigh]
      by_cases hle : high ≤ s.params.dirtyLow
      · have hk : ¬ kept := fun hk => absurd hk.2 (by omega)
        simp [hle, hk, low]
      · by_cases hv : high = v.toNat
        · have hk : kept := ⟨hv, by omega⟩
          rw [if_neg hle, if_pos hv, if_pos hk, decide_eq_true hk]
          simp only [low, if_neg hle]
        · have hk : ¬ kept := fun hk => hv hk.1
          simp [hle, hk, low, hv]
    rw [hstored]
    exact answered_fields (s := { s with params := _ }) ((reportDirtyBounds_calm _ _).trans (touch_calm 3 _))
  · intro low
    refine ⟨_, setParameter_stores hm (id := 6) rfl, ?_⟩
    have hlow : clampTo 0 (s.params.dirtyHigh - 1) v.toNat = low := by
      rw [clampTo, Nat.zero_max, Nat.min_comm]
    simp only [storeNumber, hlow]
    exact answered_fields (s := { s with params := _ }) ((reportDirtyBounds_calm _ _).trans (touch_calm 3 _))

/-! ## Enquiries (R197, R198) -/

/-- Settles O25: neither transaction has a check of its own, and each reports what the state holds. -/
theorem enquiries : Obligations.Enquiries := by
  intro h s
  refine ⟨fun hm segment => ?_, fun hm clear => ?_⟩
  · exact transaction_accepted hm _ rfl _
  · refine (transaction_accepted hm _ rfl _).trans ?_
    cases clear
    · simp
      rfl
    · simp
      rfl

end Sys2Proof.Machine


/-! ## Command descriptors and the Link Reset (R72 to R75, R77, R87, R99) -/

namespace Sys2Proof.Machine

/-! ### What the reports of a taking leave alone -/

/-- What the reports to the Stream Detector, the Heat Unit and the counters leave alone as a command is taken. -/
structure TakePart where
  lu : LinkUnit
  ct : CommandTracker
  sm : SegmentMap
  candidates : List Candidate
  rc : RangeComparator
  params : Params
  me : MigrationEngine
  fps : Scheduler
  held : List HeldRequest
  pps : Scheduler
  pm : PlatterMonitor

def takePart (s : State) : TakePart :=
  ⟨s.lu, s.ct, s.sm, s.hu.candidates, s.rc, s.params, s.me, s.fps, s.held, s.pps, s.pm⟩

theorem clearStreams_take (s : State) : takePart (clearStreams s) = takePart s := by
  unfold clearStreams
  split <;> rfl

theorem streamEvent_take (e : ClearEvent) (s : State) : takePart (streamEvent e s) = takePart s := by
  unfold streamEvent
  split
  · exact clearStreams_take s
  · rfl

theorem advanceEpoch_take (s : State) : takePart (advanceEpoch s) = takePart s := by
  unfold advanceEpoch
  split
  · exact (streamEvent_take _ _).trans rfl
  · rfl

theorem agingEvent_take (s : State) : takePart (agingEvent s) = takePart s := by
  unfold agingEvent
  split
  · split
    · exact (advanceEpoch_take _).trans rfl
    · rfl
  · rfl

theorem countCommand_take (s : State) : takePart (countCommand s) = takePart s := by
  unfold countCommand
  split
  · exact agingEvent_take s
  · rfl

theorem reportFlushCache_take (d : Descriptor) (s : State) : takePart (reportFlushCache d s) = takePart s := by
  unfold reportFlushCache
  split
  · exact streamEvent_take _ s
  · rfl

theorem bump_take (k : Counter) (s : State) : takePart (bump k s) = takePart s := by
  unfold bump
  split <;> rfl

theorem consultFor_take (d : Descriptor) (s : State) : takePart (consultFor d s).2 = takePart s := by
  unfold consultFor consultStreams
  split
  · split <;> rfl
  · split <;> rfl
  · rfl
  · rfl

/-- No report of a taking but the consultation changes the counters, apart from the count of the taking itself. -/
theorem streamEvent_stats (e : ClearEvent) (s : State) : (streamEvent e s).stats = s.stats := by
  unfold streamEvent clearStreams
  split
  · split <;> rfl
  · rfl

theorem agingEvent_stats (s : State) : (agingEvent s).stats = s.stats := by
  unfold agingEvent advanceEpoch
  split
  · split
    · split
      · exact (streamEvent_stats _ _).trans rfl
      · rfl
    · rfl
  · rfl

theorem countCommand_stats (s : State) : (countCommand s).stats = s.stats := by
  unfold countCommand
  split
  · exact agingEvent_stats s
  · rfl

theorem reportFlushCache_stats (d : Descriptor) (s : State) : (reportFlushCache d s).stats = s.stats := by
  unfold reportFlushCache
  split
  · exact streamEvent_stats _ s
  · rfl

theorem consultFor_stats (d : Descriptor) (s : State) : (consultFor d s).2.stats = s.stats := by
  unfold consultFor consultStreams
  split
  · split <;> rfl
  · split <;> rfl
  · rfl
  · rfl

theorem bump_stats_congr {k : Counter} {s t : State} (h : t.stats = s.stats) : (bump k t).stats = (bump k s).stats := by
  unfold bump
  rw [h]
  split <;> simp [touch, h]

/-- The state in which a descriptor stands in its slot and every report of its taking has been made (R72 steps 1 to 7). -/
def tracked1 (d : Descriptor) (s : State) : State :=
  reportFlushCache d (countCommand (bump .commandsTaken
    (occupySlot d.tag (commandRecord d (consultFor d s).1 s) (consultFor d s).2)))

theorem takeDescriptor_eq (d : Descriptor) (s : State) : takeDescriptor d s = openCommand d (tracked1 d s) := rfl

theorem tracked1_take (d : Descriptor) (s : State) :
    takePart (tracked1 d s) = takePart (occupySlot d.tag (commandRecord d (consultFor d s).1 s) s) := by
  have hc := consultFor_take d s
  refine (reportFlushCache_take d _).trans ((countCommand_take _).trans ((bump_take _ _).trans ?_))
  simp only [takePart, TakePart.mk.injEq] at hc
  obtain ⟨h1, h2, h3, h4, h5, h6, h7, h8, h9, h10, h11⟩ := hc
  simp only [takePart, occupySlot, h1, h2, h3, h4, h5, h6, h7, h8, h9, h10, h11]

theorem tracked1_ct (d : Descriptor) (s : State) :
    (tracked1 d s).ct = (occupySlot d.tag (commandRecord d (consultFor d s).1 s) s).ct :=
  congrArg TakePart.ct (tracked1_take d s)

theorem tracked1_lu (d : Descriptor) (s : State) : (tracked1 d s).lu = s.lu := congrArg TakePart.lu (tracked1_take d s)

theorem tracked1_stats (d : Descriptor) (s : State) : (tracked1 d s).stats = (bump .commandsTaken s).stats := by
  unfold tracked1
  rw [reportFlushCache_stats, countCommand_stats]
  exact bump_stats_congr (consultFor_stats d s)

/-! ### The slots after a taking -/

theorem occupySlot_same (tag : Fin 32) (c : Command) (s : State) :
    (occupySlot tag c s).ct.slots[tag] = ⟨s.ct.slots[tag].useNo + 1, some c⟩ := by simp [occupySlot]

theorem occupySlot_other {tag x : Fin 32} (h : x ≠ tag) (c : Command) (s : State) :
    (occupySlot tag c s).ct.slots[x] = s.ct.slots[x] := by
  have hv : ¬ tag.val = x.val := fun e => h (Fin.ext e.symm)
  simp only [Fin.getElem_fin, occupySlot]
  exact Vector.getElem_set_ne (h := hv) ..

theorem modifyCommand_same {tag : Fin 32} {f : Command → Command} {s : State} :
    (modifyCommand tag f s).ct.slots[tag] = { s.ct.slots[tag] with command := s.ct.slots[tag].command.map f } := by
  simp [modifyCommand]

theorem modifyCommand_other {tag x : Fin 32} (h : x ≠ tag) (f : Command → Command) (s : State) :
    (modifyCommand tag f s).ct.slots[x] = s.ct.slots[x] := by
  have hv : ¬ tag.val = x.val := fun e => h (Fin.ext e.symm)
  simp only [Fin.getElem_fin, modifyCommand]
  exact Vector.getElem_set_ne (h := hv) ..

/-- The use numbers are those of the tags. -/
theorem useNo_of_calm {s t : State} (h : calmPart t = calmPart s) (x : Fin 32) :
    t.ct.slots[x].useNo = s.ct.slots[x].useNo := by
  have hu : ∀ v : Vector TagSlot 32, (tagsOf v)[x.val]?.map Prod.fst = some v[x].useNo := fun v => by simp [tagsOf]
  have ht : tagsOf t.ct.slots = tagsOf s.ct.slots := congrArg CalmPart.tags h
  exact Option.some.inj ((hu _).symm.trans ((congrArg (fun l => l[x.val]?.map Prod.fst) ht).trans (hu _)))

theorem freeSlot_useNo (tag x : Fin 32) (s : State) : (freeSlot tag s).ct.slots[x].useNo = s.ct.slots[x].useNo := by
  by_cases h : x = tag
  · subst h; simp [freeSlot]
  · have hv : ¬ tag.val = x.val := fun e => h (Fin.ext e.symm)
    simp only [Fin.getElem_fin, freeSlot]
    rw [Vector.getElem_set_ne (h := hv)]

theorem flushCacheSweep_useNo (x : Fin 32) (ts : List (Fin 32)) (seen : Bool) (s : State) :
    (flushCacheSweep ts seen s).ct.slots[x].useNo = s.ct.slots[x].useNo := by
  induction ts generalizing seen s with
  | nil => rfl
  | cons t ts ih =>
    rw [flushCacheSweep]
    cases commandOf t s with
    | none => exact ih _ _
    | some c =>
      dsimp only
      by_cases hc : (decide (c.kind = .flushCache) && !c.held && !seen) = true
      · rw [if_pos hc, ih]
        exact freeSlot_useNo t x s
      · rw [if_neg hc, ih]

theorem openCommand_useNo (d : Descriptor) (s : State) (x : Fin 32) :
    (openCommand d s).ct.slots[x].useNo = s.ct.slots[x].useNo := by
  unfold openCommand
  split
  · rfl
  · split
    · exact (flushCacheSweep_useNo x _ _ _).trans (useNo_of_calm (splitCommand_calm _ _) x)
    · exact useNo_of_calm (splitCommand_calm _ _) x

/-- The slot of a command taken carries its next use number, whatever else the taking does. -/
theorem takeDescriptor_useNo (d : Descriptor) (s : State) :
    (takeDescriptor d s).ct.slots[d.tag].useNo = s.ct.slots[d.tag].useNo + 1 := by
  rw [takeDescriptor_eq, openCommand_useNo, tracked1_ct, occupySlot_same]

/-- Settles O9: the tests stand in their order, and none is left for a descriptor that meets none of them. -/
theorem descriptorTestsInOrder : Obligations.DescriptorTestsInOrder := by
  intro d s h hr hm
  have href := descriptorRefusal_admitted hr hm d
  refine ⟨fun hin => ?_, fun hout hk => ⟨fun hl => ?_, fun h0 h1 ha => ?_⟩, fun hout hd => ?_⟩
  · exact exec_commandDescriptor_refused h (by rw [href, if_pos hin])
  · exact exec_commandDescriptor_refused h (by rw [href, hout, if_neg (by simp), if_pos ⟨hk, hl⟩])
  · exact exec_commandDescriptor_refused h
      (by rw [href, hout, if_neg (by simp), if_neg (by omega), if_pos ⟨hk, ha⟩])
  · exact ⟨_, exec_commandDescriptor_taken h (descriptorRefusal_none hr hm hout hd), takeDescriptor_useNo d s⟩

/-- Settles O11: in SAVING a taking ends with the reports, and the record keeps its first form. -/
theorem descriptorHeldInSaving : Obligations.DescriptorHeldInSaving := by
  intro d s h hr hm hout hd
  have ht := exec_commandDescriptor_taken h (descriptorRefusal_none hr (.inr hm) hout hd)
  have hopen : takeDescriptor d s = tracked1 d s := by
    rw [takeDescriptor_eq, openCommand, tracked1_lu, if_pos hm]
  have hp := tracked1_take d s
  simp only [takePart, TakePart.mk.injEq] at hp
  obtain ⟨hlu, hct, hsm, -, hrc, hpa, hme, hfp, hhe, hpp, hpm⟩ := hp
  refine ⟨_, commandRecord d (consultFor d s).1 s, hopen ▸ ht, ?_, by simp [commandRecord, hm], rfl, rfl, fun tag hne => ?_,
    ?_, ?_, hlu, hsm, hrc, hpa, hme, hfp, hhe, hpp, hpm⟩
  · rw [hct, occupySlot_same]
  · rw [hct, occupySlot_other hne]
  · rw [hct]; rfl
  · rw [hct]; rfl

end Sys2Proof.Machine


/-! ## The ports' bounds: a waiting order of another port (R170)

The orders that a save or a restore has waiting are flash orders, but the state of a save can hold any order, and
`PortsStayBounded` speaks of every state. -/

namespace Sys2Proof.Machine

/-- A save whose waiting order is for the Platter Port; the part makes no such order. -/
def straySave : SaveProgress where
  requested := 0
  fullPerformed := false
  written := 0
  present := 0
  sequence := 0
  remaining := []
  current := none
  snapshotted := 0
  entries := Vector.replicate 6 ⟨0, 0, 0, 0⟩
  nextBlock := 0
  header := Header.initial
  waiting := some { labelReadOrder 0 with port := .platter }

/-- A full Platter Background queue, one flash order to dispatch, and the stray save. -/
def strayState : State :=
  { State.reset with
    fps.background := [labelReadOrder 0]
    pps.background := List.replicate 16 (labelReadOrder 0)
    cu.operation := .saving straySave
    pending := [.orderDispatch .flash] }

theorem strayState_bounded : portsBounded strayState := by
  refine ⟨⟨?_, ?_, ?_, ?_, ?_⟩, ⟨?_, ?_, ?_, ?_, ?_⟩⟩ <;> decide

/-- The dispatch gives the room on the Flash Background queue to the waiting order, which joins the other port's queue. -/
theorem strayState_overflows : ∃ t, step strayState = .next t ∧ t.pps.background.length = 17 := by
  refine ⟨_, rfl, ?_⟩
  rfl

/-- Refutes O59: with an order of the Platter Port waiting in a save, the dispatch of a flash order puts a 17th order into the
Platter Background queue. -/
theorem not_portsStayBounded : ¬ Obligations.PortsStayBounded := by
  intro h
  obtain ⟨t, ht, hlen⟩ := strayState_overflows
  have hb : t.pps.background.length ≤ 16 := ((h strayState t ht).1 strayState_bounded).2.2.1
  omega

end Sys2Proof.Machine

/-! ## Time, the notices and the Response Link -/

namespace Sys2Proof.Machine

/-- The decision `p` as a test for each of its two outcomes. -/
theorem quietRuns_iff (s : State) : quietRuns s = true ↔
    s.pm.state = .ready ∧ s.pm.platterWork = false ∧ s.pm.movesExist = false := by
  simp [quietRuns, and_assoc]

theorem inReset_eq_false {s : State} (h : s.lu.marker ≠ .resetEngine) : inReset s = false := by simp [inReset, h]

theorem agingMode_iff (m : EngineMode) : agingMode m = true ↔ m = .online ∨ m = .saving ∨ m = .draining := by
  cases m <;> simp [agingMode]

/-- One millisecond of the time residue, field by field. -/
theorem residueTick_eq (s : State) :
    residueTick s =
      { s with
        hu.timeResidue :=
          if agingMode s.lu.mode && countsTime s then
            (if 1000 ≤ s.hu.timeResidue + 1 then 0 else s.hu.timeResidue + 1) else s.hu.timeResidue
        hu.secondsDue :=
          if (agingMode s.lu.mode && countsTime s) = true ∧ 1000 ≤ s.hu.timeResidue + 1 then s.hu.secondsDue + 1
          else s.hu.secondsDue } := by
  unfold residueTick
  by_cases h : (agingMode s.lu.mode && countsTime s) = true
  · by_cases h2 : 1000 ≤ s.hu.timeResidue + 1
    · simp only [h, h2, if_true, and_self]
    · simp only [h, h2, if_true, if_false, and_false]
  · simp only [h, if_false, false_and, Bool.false_eq_true]

/-- One millisecond of the quiet timer, field by field. -/
theorem quietTick_eq (s : State) :
    quietTick s =
      { s with
        pm.quietTimer := if quietRuns s && !inReset s then min s.params.quietTime (s.pm.quietTimer + 1) else s.pm.quietTimer
        pm.quietReached :=
          if quietRuns s && !inReset s then decide (s.params.quietTime ≤ s.pm.quietTimer + 1) else s.pm.quietReached } := by
  unfold quietTick
  by_cases h : (quietRuns s && !inReset s) = true
  · simp only [h, if_true]
  · simp only [h, if_false, Bool.false_eq_true]

/-- Settles O34. -/
theorem millisecondTickAndQuiet : Obligations.MillisecondTickAndQuiet := by
  refine ⟨fun s => ?_, fun s hr hready hwork hmoves harmed hreset => ?_⟩
  · have hcounts : (agingMode s.lu.mode && countsTime s) = true ↔
        (s.lu.mode = .online ∨ s.lu.mode = .saving ∨ s.lu.mode = .draining) ∧ s.params.epochSource ≠ .commands := by
      simp [agingMode_iff, countsTime]
    have hquiet : (quietRuns s && !inReset s) = true ↔ s.pm.state = .ready ∧ s.pm.platterWork = false
        ∧ s.pm.movesExist = false ∧ s.lu.marker ≠ .resetEngine := by
      simp [quietRuns_iff, inReset, and_assoc]
    have hrun : exec .millisecondTick s = .next (quietTick (residueTick { s with timebase := s.timebase + 1 })) := rfl
    have hq : quietRuns (residueTick { s with timebase := s.timebase + 1 }) = quietRuns s := by
      rw [residueTick_eq]
      rfl
    have hi : inReset (residueTick { s with timebase := s.timebase + 1 }) = inReset s := by
      rw [residueTick_eq]
      rfl
    simp only [hrun, quietTick_eq, hq, hi]
    rw [residueTick_eq]
    have hm : countsTime { s with timebase := s.timebase + 1 } = countsTime s := rfl
    simp only [hm, hcounts, hquiet]
    by_cases h1 : (s.lu.mode = .online ∨ s.lu.mode = .saving ∨ s.lu.mode = .draining) ∧ s.params.epochSource ≠ .commands
    · by_cases h2 : 1000 ≤ s.hu.timeResidue + 1
      · simp only [eq_true h1, h2, true_and, if_true]
      · simp only [eq_true h1, h2, and_false, if_true, if_false]
    · simp only [eq_false h1, false_and, if_false]
  · have hdue : quietDue s = true := by
      simp [quietDue, quietRuns_iff, inReset_eq_false hreset, hr, hready, hwork, hmoves, harmed]
    have heff : platterQuietEffect s = occur .platterQuiet 2 { s with pm.quietArmed := false } := if_pos hdue
    exact congrArg Host.Outcome.next heff

/-! ### The epoch -/

theorem agingEvent_below {s : State} (hm : agingMode s.lu.mode = true) (h : s.hu.agingCount + 1 < s.params.epochSpan) :
    agingEvent s = { s with hu.agingCount := s.hu.agingCount + 1 } := by
  unfold agingEvent
  rw [if_pos hm, if_neg (by omega)]

theorem agingEvent_full {s : State} (hm : agingMode s.lu.mode = true) (h : s.params.epochSpan ≤ s.hu.agingCount + 1) :
    agingEvent s = advanceEpoch { s with hu.agingCount := 0 } := by
  unfold agingEvent
  rw [if_pos hm, if_pos h]

theorem advanceEpoch_below {s : State} (h : s.hu.epoch < 4294967295) :
    advanceEpoch s = streamEvent .epochAdvance (touch 1 { s with hu.epoch := s.hu.epoch + 1 }) := if_pos h

theorem clearStreams_invalid (s : State) (i : Fin 8) : (clearStreams s).streams[i].valid = false := by
  unfold clearStreams
  by_cases h : (s.streams.toList.any fun r => r.valid) = true
  · rw [if_pos h]
    simp [StreamRec.initial]
  · rw [if_neg h]
    simp only [List.any_eq_true, not_exists, not_and, Bool.not_eq_true] at h
    exact h _ (by simp)

theorem streamEvent_selected {e : ClearEvent} {s : State} (h : s.params.streamClearMask.getLsbD (clearBit e) = true) :
    streamEvent e s = clearStreams s := if_pos h

theorem streamEvent_unselected {e : ClearEvent} {s : State} (h : s.params.streamClearMask.getLsbD (clearBit e) = false) :
    streamEvent e s = s := if_neg (by simp [h])

/-- A clear event changes the stream records and joins components to InUse and Modified; the rest stays. -/
theorem streamEvent_frame (e : ClearEvent) (s : State) :
    (streamEvent e s).hu = s.hu ∧ (streamEvent e s).lu = s.lu ∧ (streamEvent e s).sm = s.sm ∧ (streamEvent e s).ct = s.ct
      ∧ (streamEvent e s).me = s.me ∧ (streamEvent e s).fps = s.fps ∧ (streamEvent e s).pps = s.pps
      ∧ (streamEvent e s).held = s.held ∧ (streamEvent e s).pm = s.pm ∧ (streamEvent e s).rc = s.rc
      ∧ (streamEvent e s).params = s.params ∧ (streamEvent e s).stats = s.stats := by
  unfold streamEvent clearStreams
  split
  · split <;> simp
  · simp

theorem streamEvent_sets (e : ClearEvent) (s : State) (i : Nat) :
    (s.cu.inUse.getLsbD i = true → (streamEvent e s).cu.inUse.getLsbD i = true)
      ∧ (s.cu.modified.getLsbD i = true → (streamEvent e s).cu.modified.getLsbD i = true) := by
  unfold streamEvent clearStreams
  split
  · split
    · simp +contextual
    · simp
  · simp

/-- Settles O35. -/
theorem timeAgingEvent : Obligations.TimeAgingEvent := by
  intro s n hn hmode
  have hmode := (agingMode_iff s.lu.mode).2 hmode
  have heff : timeAgingEffect s = agingEvent { s with hu.secondsDue := n } := by
    unfold timeAgingEffect
    rw [if_neg (by omega), hn]
    rfl
  refine ⟨fun h => congrArg Host.Outcome.next (heff.trans (agingEvent_below hmode h)), fun h hepoch => ?_⟩
  have hfull := (heff.trans (agingEvent_full hmode h)).trans (advanceEpoch_below hepoch)
  refine ⟨_, congrArg Host.Outcome.next hfull, ?_⟩
  generalize hu : touch 1 _ = u
  obtain ⟨hhu, hlu, hsm, hct, hme, hfps, hpps, -, hpm, hrc, hparams, hstats⟩ := streamEvent_frame .epochAdvance u
  rw [hhu, hlu, hsm, hct, hme, hfps, hpps, hpm, hrc, hparams, hstats]
  have hsets := streamEvent_sets .epochAdvance u 1
  have hbit : u.cu.inUse.getLsbD 1 = true ∧ u.cu.modified.getLsbD 1 = true := by
    subst hu
    simp [compBit]
  have hmask : u.params.streamClearMask = s.params.streamClearMask := by subst hu; rfl
  refine ⟨?_, hsets.1 hbit.1, hsets.2 hbit.2, fun hb i => ?_, fun hb => ?_, ?_⟩
  · subst hu
    rfl
  · rw [streamEvent_selected (by rw [hmask]; exact hb)]
    exact clearStreams_invalid u i
  · rw [streamEvent_unselected (by rw [hmask]; exact hb)]
    subst hu
    rfl
  · subst hu
    exact ⟨rfl, rfl, rfl, rfl, rfl, rfl, rfl, rfl, rfl, rfl⟩

/-! ### Notices -/

theorem mergeNotice_eq_none {n : Notice} {q : List Notice} (h : ∀ m ∈ q, m.kind ≠ n.kind) : mergeNotice n q = none := by
  induction q with
  | nil => rfl
  | cons w ws ih =>
    simp only [List.mem_cons, forall_eq_or_imp] at h
    simp [mergeNotice, ih h.2, h.1]

/-- The newest waiting notice of the kind takes the new one. -/
theorem mergeNotice_newest {n m : Notice} {older newer : List Notice} (hk : m.kind = n.kind)
    (h : ∀ w ∈ newer, w.kind ≠ n.kind) :
    mergeNotice n (older ++ m :: newer) =
      some (older ++ ⟨n.kind, min Config.maxU16 (m.occurrences + n.occurrences), n.time, n.argument⟩ :: newer) := by
  induction older with
  | nil => simp [mergeNotice, mergeNotice_eq_none h, hk]
  | cons w ws ih => simp [mergeNotice, ih]

theorem post_room {k : NoticeKind} {s : State} (h : s.lu.notices.length < 8) :
    post k s = clearCount k { s with lu.notices := s.lu.notices ++ [noticeOf k s] } := if_pos h

theorem post_merges {k : NoticeKind} {s : State} {q : List Notice} (h : 8 ≤ s.lu.notices.length)
    (hq : mergeNotice (noticeOf k s) s.lu.notices = some q) :
    post k s = bump .noticesMerged (clearCount k { s with lu.notices := q }) := by
  unfold post
  dsimp only
  rw [if_neg (by simpa [Config.noticeCapacity] using h), hq]

theorem post_deferred {k : NoticeKind} {s : State} (h : 8 ≤ s.lu.notices.length)
    (hk : ∀ n ∈ s.lu.notices, n.kind ≠ k) :
    post k s = if k ∈ s.lu.deferred then s
      else bump .postsDeferred { s with lu.deferred := s.lu.deferred ++ [k] } := by
  unfold post
  dsimp only
  rw [if_neg (by simpa [Config.noticeCapacity] using h), mergeNotice_eq_none (n := noticeOf k s) hk]
  simp

/-- Settles O36. -/
theorem occurrencePosts : Obligations.OccurrencePosts := by
  intro k a s hreset
  dsimp only
  generalize hc : min 65535 (s.lu.occurrences[k.index].count + 1) = c
  let u : State := { s with lu.occurrences := s.lu.occurrences.set k.index ⟨c, some (s.timebase, a)⟩ }
  have hoccur : occur k a s = if s.params.noticeSkip[k.index] + 1 ≤ c then post k u else u := by
    unfold occur
    rw [inReset_eq_false hreset]
    simp only [Bool.false_eq_true, if_false, Config.maxU16, hc]
    rfl
  have hnotice : noticeOf k u = ⟨k, c, s.timebase, a⟩ := by simp [noticeOf, u]
  have hclear : ∀ q, clearCount k { u with lu.notices := q } =
      { s with lu.occurrences := s.lu.occurrences.set k.index ⟨0, some (s.timebase, a)⟩, lu.notices := q } := by
    intro q
    simp [clearCount, u]
  refine ⟨fun h => hoccur.trans (if_neg (by omega)), fun h => ?_⟩
  rw [hoccur, if_pos (by omega)]
  refine ⟨fun hroom => ?_, fun hfull hno hnew => ?_, fun hfull hno hold => ?_, fun older newer n hq hfull hk hno => ?_⟩
  · rw [post_room (s := u) hroom, hnotice]
    exact hclear _
  · rw [post_deferred (s := u) hfull hno]
    exact if_neg hnew
  · rw [post_deferred (s := u) hfull hno]
    exact if_pos hold
  · have hm : mergeNotice (noticeOf k u) u.lu.notices =
        some (older ++ ⟨k, min 65535 (n.occurrences + c), s.timebase, a⟩ :: newer) := by
      rw [hnotice, show u.lu.notices = _ from hq]
      exact mergeNotice_newest (n := ⟨k, c, s.timebase, a⟩) hk hno
    rw [post_merges (s := u) hfull hm, hclear]

theorem sendNotice_posting {n : Notice} {rest : List Notice} {k : NoticeKind} {kinds : List NoticeKind} {s : State}
    (hd : s.lu.deferred = k :: kinds) (hrest : rest.length < 8) :
    ∃ u, u = bump (.noticesSent n.kind) { s with lu.notices := rest, responseWire := noticeBytes n }
      ∧ sendNotice n rest s = clearCount k { u with lu.deferred := kinds, lu.notices := rest ++ [noticeOf k u] } := by
  refine ⟨_, rfl, ?_⟩
  simp only [sendNotice, postDeferred, bump_lu, hd]
  rw [post_room (by simpa using hrest)]
  simp [noticeOf]

/-- Settles O37. -/
theorem responseLinkSend : Obligations.ResponseLinkSend := by
  intro s
  refine ⟨fun c rest h => ?_, fun n rest hc hn hd => ?_, fun n rest k kinds hc hn hlen hd => ?_⟩
  · have hsend : sendRecord s = sendCompletion c rest s := by simp only [sendRecord, h]
    exact congrArg Host.Outcome.next hsend
  · have hsend : sendRecord s = sendNotice n rest s := by simp only [sendRecord, hc, hn]
    have hpost : sendNotice n rest s = bump (.noticesSent n.kind) { s with lu.notices := rest, responseWire := noticeBytes n } := by
      simp only [sendNotice, postDeferred, bump_lu, hd]
    exact congrArg Host.Outcome.next (hsend.trans hpost)
  · have hsend : sendRecord s = sendNotice n rest s := by simp only [sendRecord, hc, hn]
    rw [hn, List.length_cons] at hlen
    obtain ⟨u, hu, hpost⟩ := sendNotice_posting (n := n) hd (show rest.length < 8 by omega)
    have hlu : u.lu = { s.lu with notices := rest } := by rw [hu, bump_lu]
    have hwire : u.responseWire = noticeBytes n := by rw [hu, bump_responseWire]
    have hstats : u.stats = (bump (.noticesSent n.kind) s).stats := by
      rw [hu]
      exact bump_stats_congr rfl
    refine ⟨_, congrArg Host.Outcome.next (hsend.trans hpost), ?_⟩
    simp [noticeOf, clearCount, hlu, hwire, hstats, hc]

/-! ### Counters and reports of change -/

theorem compBit_getElem (c d : Fin 6) : (compBit c)[d.val] = decide (d = c) := compBit_getLsbD c d

/-- Settles O38. -/
theorem changeReports : Obligations.ChangeReports := by
  refine ⟨fun k s => ⟨fun h => ?_, fun h => ⟨_, rfl, ?_⟩⟩, fun c d s => ?_⟩
  · exact if_neg (by simp [h, Config.maxU32])
  · have hb : bump k s = touch 5 { s with stats := s.stats.set (counterIndex k) (s.stats[counterIndex k] + 1) } := if_pos h
    rw [hb]
    refine ⟨by simp, fun i hi => ?_, rfl, rfl, rfl, rfl, rfl, rfl, rfl⟩
    simpa using Vector.getElem_set_ne (counterIndex k).isLt i.isLt (fun he => hi (Fin.ext he.symm))
  · simp [compMinus, compBit_getElem]

/-- Settles O52. -/
theorem invariantsAtReset : Obligations.InvariantsAtReset := by
  refine ⟨?_, rfl, ?_, ?_, ?_, ?_, ?_, ?_, ?_, ?_, ?_, ?_⟩
  · simp [modeConsistent, modeFits, State.reset, LinkUnit.initial, CheckpointUnit.initial]
  · simp [arrivalExact, commandOf, State.reset, CommandTracker.initial]
  · simp [streamsWf, State.reset, StreamRec.initial]
  · simp [candidatesWf, State.reset, HeatUnit.initial]
  · simp [countersBounded, State.reset]
  · simp [portsBounded, schedulerBounded, State.reset, Scheduler.initial]
  · simp [noticesBounded, State.reset, LinkUnit.initial]
  · simp [paramsInRange, State.reset, LinkUnit.initial, Params.defaults]
  · simp [mapExact, framesExact, listsExact, rebuildExact, frameState, State.reset, LinkUnit.initial, SegmentMap.initial,
      CheckpointUnit.initial]
  · simp [movesExact, allMoves, State.reset, MigrationEngine.initial]
  · simp [workViewTrue, allMoves, State.reset, MigrationEngine.initial, Scheduler.initial, PlatterMonitor.initial]

end Sys2Proof.Machine

/-! ## The Heat Unit: contribution, decay and the Candidate Table -/

namespace Sys2Proof.Machine

theorem boost_cases (segment : Nat) (s : State) :
    (evaluate segment s).boost = 1 ∨ (evaluate segment s).boost = 2 ∨ (evaluate segment s).boost = 4 := by
  rw [evaluate_boost]
  split
  · simp
  · split <;> simp

theorem lengthFactor_le (n : Nat) : lengthFactor n ≤ 4 := by
  unfold lengthFactor
  split
  · omega
  · split <;> omega

theorem contribution_of_sequential {c : Command} (h : c.sequential = true) (hc : c.classCopy.streamsCount = false) (b : Nat) :
    contribution c b = 0 := if_pos (by simp [h, hc])

theorem contribution_of_counted {c : Command} (h : c.sequential = false ∨ c.classCopy.streamsCount = true) (b : Nat) :
    contribution c b =
      (if c.kind = .read then c.classCopy.readWeight else c.classCopy.writeWeight) * lengthFactor c.length * b := by
  refine if_neg ?_
  rcases h with h | h <;> simp [h]

/-- Settles O48: the bound 4080 is 255 × 4 × 4. -/
theorem contributionOfAccess : Obligations.ContributionOfAccess := by
  intro c segment s _ _ _ hread hwrite
  dsimp only
  generalize hb : (evaluate segment s).boost = b
  have hb4 : b ≤ 4 := by
    have := boost_cases segment s
    omega
  have hw : (if c.kind = .read then c.classCopy.readWeight else c.classCopy.writeWeight) ≤ 255 := by
    split
    · exact hread
    · exact hwrite
  refine ⟨fun h hc => contribution_of_sequential h hc b, fun h => ?_, ?_⟩
  · rw [contribution_of_counted h]
    refine ⟨fun h16 => ?_, fun h17 h64 => ?_, fun h65 => ?_⟩
    · rw [show lengthFactor c.length = 4 from if_pos h16]
    · rw [show lengthFactor c.length = 2 from (if_neg (by omega)).trans (if_pos h64)]
    · rw [show lengthFactor c.length = 1 from (if_neg (by omega)).trans (if_neg (by omega))]
  · by_cases h : c.sequential = true ∧ c.classCopy.streamsCount = false
    · rw [contribution_of_sequential h.1 h.2]
      omega
    · have hcounted : c.sequential = false ∨ c.classCopy.streamsCount = true := by
        cases hq : c.sequential <;> cases hc : c.classCopy.streamsCount <;> simp_all
      rw [contribution_of_counted hcounted]
      exact Nat.mul_le_mul (Nat.mul_le_mul hw (lengthFactor_le c.length)) hb4

/-! ### Decay -/

/-- The step of GENTLE decay (R34). -/
def threeQuarters (v : Nat) : Nat := 3 * v / 4

theorem gentleDecay_eq_iterate (k h : Nat) : gentleDecay k h = threeQuarters^[k] h := by
  induction k generalizing h with
  | zero => rfl
  | succ k ih => exact ih _

theorem threeQuarters_iterate_mono (k : Nat) {a b : Nat} (h : a ≤ b) : threeQuarters^[k] a ≤ threeQuarters^[k] b := by
  refine Monotone.iterate (fun x y hxy => ?_) k h
  unfold threeQuarters
  omega

theorem threeQuarters_iterate_zero (k : Nat) : threeQuarters^[k] 0 = 0 :=
  Function.iterate_fixed rfl k

/-- After 37 steps nothing is left of a heat within 16 bits. -/
theorem threeQuarters_iterate_eq_zero {h k : Nat} (hh : h ≤ 65535) (hk : 37 ≤ k) : threeQuarters^[k] h = 0 := by
  have htop : threeQuarters^[37] 65535 = 0 := by rw [← gentleDecay_eq_iterate]; decide
  have h37 : threeQuarters^[37] h = 0 := Nat.le_zero.1 (htop ▸ threeQuarters_iterate_mono 37 hh)
  obtain ⟨j, rfl⟩ := Nat.exists_eq_add_of_le' hk
  rw [Function.iterate_add_apply, h37, threeQuarters_iterate_zero]

theorem decayHeat_gentle_eq {h k : Nat} (hh : h ≤ 65535) : decayHeat .gentle k h = threeQuarters^[k] h := by
  unfold decayHeat
  dsimp only
  split
  · exact (threeQuarters_iterate_eq_zero hh (by omega)).symm
  · exact gentleDecay_eq_iterate k h

theorem decayHeat_halve_eq {h k : Nat} (hh : h ≤ 65535) : decayHeat .halve k h = h / 2 ^ k := by
  unfold decayHeat
  dsimp only
  split
  · next hk =>
    have h16 : 2 ^ 16 ≤ 2 ^ k := Nat.pow_le_pow_right (by omega) hk
    exact (Nat.div_eq_of_lt (by omega)).symm
  · rfl

theorem decayHeat_zero_age (m : DecayMode) (h : Nat) : decayHeat m 0 h = h := by cases m <;> simp [decayHeat, gentleDecay]

/-- Settles O49. -/
theorem decayOfHeat : Obligations.DecayOfHeat := by
  refine ⟨fun h k hh => decayHeat_halve_eq hh, fun h k hh => decayHeat_gentle_eq hh, fun h k hk => if_pos hk,
    fun h k hk => if_pos hk, fun k hk => ?_, fun r s => ⟨fun he => ?_, fun hlt => ?_⟩⟩
  · rw [decayHeat_gentle_eq (by omega), threeQuarters_iterate_eq_zero (by omega) hk]
  · simp [decayedHeat, decayedMark, he, decayHeat_zero_age]
  · have hage : ¬ s.hu.epoch - r.stamp = 0 := by omega
    simp [decayedMark, hage]

/-! ### The Candidate Table -/

/-- The full ways stand in ascending place. -/
def placesAscend (cs : List Candidate) : Prop := cs.Pairwise fun a b => a.place < b.place

theorem placesAscend_iff (cs : List Candidate) : (cs.map Candidate.place).Pairwise (· < ·) ↔ placesAscend cs := List.pairwise_map

theorem placesAscend.eq_of_place {cs : List Candidate} (h : placesAscend cs) {a b : Candidate} (ha : a ∈ cs) (hb : b ∈ cs)
    (hp : a.place = b.place) : a = b := by
  by_contra hne
  rcases List.Pairwise.forall_of_forall_of_flip (R := fun a b => a = b ∨ a.place < b.place ∨ b.place < a.place)
    (fun _ _ => Or.inl rfl) (h.imp fun hlt => Or.inr (Or.inl hlt)) (h.imp fun hlt => Or.inr (Or.inr hlt)) ha hb with h | h | h
  · exact hne h
  · omega
  · omega

theorem candidatesWf.eq_of_segment {cs : List Candidate} (h : candidatesWf cs) {a b : Candidate} (ha : a ∈ cs) (hb : b ∈ cs)
    (hs : a.segment = b.segment) : a = b := List.inj_on_of_nodup_map h.2.1 ha hb hs

theorem mem_putCandidate {c : Candidate} {cs : List Candidate} (h : placesAscend cs) (y : Candidate) :
    y ∈ putCandidate c cs ↔ y = c ∨ (y ∈ cs ∧ y.place ≠ c.place) := by
  induction cs with
  | nil => simp [putCandidate]
  | cons d ds ih =>
    obtain ⟨hd, hds⟩ := List.pairwise_cons.1 h
    unfold putCandidate
    split
    · next hlt =>
      have hall : ∀ x ∈ d :: ds, x.place ≠ c.place := by
        intro x hx
        rcases List.mem_cons.1 hx with rfl | hx
        · omega
        · have := hd x hx
          omega
      constructor
      · intro hy
        rcases List.mem_cons.1 hy with rfl | hy
        · exact .inl rfl
        · exact .inr ⟨hy, hall y hy⟩
      · rintro (rfl | ⟨hy, -⟩)
        · exact List.mem_cons_self
        · exact List.mem_cons_of_mem _ hy
    · split
      · next heq =>
        have hall : ∀ x ∈ ds, x.place ≠ c.place := fun x hx => by
          have := hd x hx
          omega
        constructor
        · intro hy
          rcases List.mem_cons.1 hy with rfl | hy
          · exact .inl rfl
          · exact .inr ⟨List.mem_cons_of_mem _ hy, hall y hy⟩
        · rintro (rfl | ⟨hy, hp⟩)
          · exact List.mem_cons_self
          · rcases List.mem_cons.1 hy with rfl | hy
            · exact absurd heq.symm hp
            · exact List.mem_cons_of_mem _ hy
      · next hne =>
        rw [List.mem_cons, ih hds, List.mem_cons]
        constructor
        · rintro (rfl | rfl | ⟨hy, hp⟩)
          · exact .inr ⟨.inl rfl, fun he => hne he.symm⟩
          · exact .inl rfl
          · exact .inr ⟨.inr hy, hp⟩
        · rintro (rfl | ⟨rfl | hy, hp⟩)
          · exact .inr (.inl rfl)
          · exact .inl rfl
          · exact .inr (.inr ⟨hy, hp⟩)

theorem placesAscend_putCandidate {c : Candidate} {cs : List Candidate} (h : placesAscend cs) :
    placesAscend (putCandidate c cs) := by
  induction cs with
  | nil => simp [putCandidate, placesAscend]
  | cons d ds ih =>
    obtain ⟨hd, hds⟩ := List.pairwise_cons.1 h
    unfold putCandidate
    split
    · next hlt =>
      refine List.pairwise_cons.2 ⟨fun x hx => ?_, h⟩
      rcases List.mem_cons.1 hx with rfl | hx
      · exact hlt
      · have := hd x hx
        omega
    · split
      · next heq => exact List.pairwise_cons.2 ⟨fun x hx => by rw [heq]; exact hd x hx, hds⟩
      · next hnlt hne =>
        refine List.pairwise_cons.2 ⟨fun x hx => ?_, ih hds⟩
        rcases (mem_putCandidate hds x).1 hx with rfl | ⟨hx, -⟩
        · omega
        · exact hd x hx

/-- Putting a changed record in a way of the table changes that way alone. -/
theorem putCandidate_replace {cs : List Candidate} (h : placesAscend cs) {x : Candidate} (hx : x ∈ cs) (r : HeatRec) :
    putCandidate { x with heat := r } cs = cs.map fun y => if y.place = x.place then { y with heat := r } else y := by
  induction cs with
  | nil => cases hx
  | cons d ds ih =>
    obtain ⟨hd, hds⟩ := List.pairwise_cons.1 h
    unfold putCandidate
    rcases List.mem_cons.1 hx with rfl | hx
    · have hrest : ds.map (fun y => if y.place = x.place then { y with heat := r } else y) = ds :=
        (List.map_congr_left fun y hy => if_neg (by have := hd y hy; omega)).trans (List.map_id' ds)
      simp [hrest]
    · have hlt := hd x hx
      rw [if_neg (by dsimp only; omega), if_neg (by dsimp only; omega), ih hds hx]
      simp only [List.map_cons]
      rw [if_neg (by omega)]

/-- A candidate of a segment that no other way holds is put at a way of the segment's set. -/
theorem candidatesWf_putCandidate {c : Candidate} {cs : List Candidate} (h : candidatesWf cs)
    (hset : c.place / 4 = c.segment % 1024) (hother : ∀ x ∈ cs, x.segment = c.segment → x.place = c.place) :
    candidatesWf (putCandidate c cs) := by
  obtain ⟨hp, hs, hw⟩ := h
  rw [placesAscend_iff] at hp
  have hmem := mem_putCandidate (c := c) hp
  have hput := placesAscend_putCandidate (c := c) hp
  refine ⟨(placesAscend_iff _).2 hput, ?_, fun x hx => ?_⟩
  · refine (List.nodup_map_iff_inj_on (hput.imp fun hlt heq => by simp [heq] at hlt)).2 fun x hx y hy hxy => ?_
    rcases (hmem x).1 hx with hxc | ⟨hx, hxp⟩ <;> rcases (hmem y).1 hy with hyc | ⟨hy, hyp⟩
    · rw [hxc, hyc]
    · exact absurd (hother y hy (by rw [← hxy, hxc])) hyp
    · exact absurd (hother x hx (by rw [hxy, hyc])) hxp
    · exact List.inj_on_of_nodup_map hs hx hy hxy
  · rcases (hmem x).1 hx with rfl | ⟨hx, -⟩
    · exact hset
    · exact hw x hx

theorem candidateOf_eq_some {g : Nat} {s : State} (h : candidatesWf s.hu.candidates) {x : Candidate}
    (hx : x ∈ s.hu.candidates) (hg : x.segment = g) : candidateOf g s = some x := by
  have hmem : x ∈ candidatesOf (candidateSet g) s := by
    simp [candidatesOf, candidateSet, hx, h.2.2 x hx, hg]
  have hsome : (candidateOf g s).isSome = true := List.find?_isSome.2 ⟨x, hmem, by simp [hg]⟩
  obtain ⟨y, hy⟩ := Option.isSome_iff_exists.1 hsome
  have hyg : y.segment = g := by simpa using List.find?_some hy
  have hymem : y ∈ s.hu.candidates := List.mem_of_mem_filter (List.mem_of_find?_eq_some hy)
  rw [hy, h.eq_of_segment hymem hx (hyg.trans hg.symm)]

theorem candidateOf_some {g : Nat} {s : State} {x : Candidate} (h : candidateOf g s = some x) :
    x ∈ s.hu.candidates ∧ x.segment = g :=
  ⟨List.mem_of_mem_filter (List.mem_of_find?_eq_some h), by simpa using List.find?_some h⟩

theorem candidateOf_eq_none {g : Nat} {s : State} (h : ∀ x ∈ s.hu.candidates, x.segment ≠ g) : candidateOf g s = none :=
  List.find?_eq_none.2 fun x hx => by simpa using h x (List.mem_of_mem_filter hx)

theorem emptyWay_eq_some {p : Nat} {set : Nat} {s : State} (hp : p / 4 = set) (hfree : ∀ x ∈ s.hu.candidates, x.place ≠ p)
    (hfull : ∀ q, q < p → q / 4 = set → ∃ x ∈ s.hu.candidates, x.place = q) : emptyWay set s = some p := by
  unfold emptyWay
  rw [List.find?_map]
  have hw : (List.range 4).find? ((fun q => !s.hu.candidates.any fun c => c.place == q) ∘ fun w => 4 * set + w)
      = some (p - 4 * set) := by
    have hpw : 4 * set + (p - 4 * set) = p := by omega
    refine List.find?_range_eq_some.2 ⟨by simp [hpw]; exact hfree, by simp; omega, fun j hj => ?_⟩
    obtain ⟨x, hx, hxp⟩ := hfull (4 * set + j) (by omega) (by omega)
    simp only [Function.comp, Bool.not_not, List.any_eq_true]
    exact ⟨x, hx, by simp [hxp]⟩
  rw [hw]
  simp
  omega

theorem emptyWay_eq_none {set : Nat} {s : State} (hfull : ∀ q, q / 4 = set → ∃ x ∈ s.hu.candidates, x.place = q) :
    emptyWay set s = none := by
  refine List.find?_eq_none.2 fun p hp => ?_
  obtain ⟨w, hw, rfl⟩ := List.mem_map.1 hp
  obtain ⟨x, hx, hxp⟩ := hfull (4 * set + w) (by have := List.mem_range.1 hw; omega)
  simpa using ⟨x, hx, hxp⟩

theorem emptyWay_some {p : Nat} {set : Nat} {s : State} (h : emptyWay set s = some p) :
    p / 4 = set ∧ ∀ x ∈ s.hu.candidates, x.place ≠ p := by
  obtain ⟨w, hw, rfl⟩ := List.mem_map.1 (List.mem_of_find?_eq_some h)
  refine ⟨by have := List.mem_range.1 hw; omega, ?_⟩
  simpa using List.find?_some h

theorem coldest_mem {s : State} {cs : List Candidate} {v : Candidate} (h : coldest s cs = some v) : v ∈ cs := by
  induction cs generalizing v with
  | nil => simp [coldest] at h
  | cons c cs ih =>
    unfold coldest at h
    split at h
    · simp_all
    · next d hd =>
      split at h
      · cases h
        exact List.mem_cons_of_mem _ (ih hd)
      · cases h
        exact List.mem_cons_self

/-- The candidate of lowest decayed heat in the lowest way is the coldest (R41). -/
theorem coldest_eq_some {s : State} {cs : List Candidate} (h : placesAscend cs) {v : Candidate} (hv : v ∈ cs)
    (hle : ∀ x ∈ cs, decayedHeat v.heat s ≤ decayedHeat x.heat s)
    (hlt : ∀ x ∈ cs, x.place < v.place → decayedHeat v.heat s < decayedHeat x.heat s) : coldest s cs = some v := by
  induction cs with
  | nil => cases hv
  | cons c cs ih =>
    obtain ⟨hc, hcs⟩ := List.pairwise_cons.1 h
    unfold coldest
    rcases List.mem_cons.1 hv with rfl | hv
    · split
      · rfl
      · next d hd => rw [if_neg (by have := hle d (List.mem_cons_of_mem _ (coldest_mem hd)); omega)]
    · rw [ih hcs hv (fun x hx => hle x (List.mem_cons_of_mem _ hx)) fun x hx => hlt x (List.mem_cons_of_mem _ hx)]
      exact if_pos (hlt c List.mem_cons_self (hc v hv))

theorem heatLimitReached_candidates (g : Nat) (s : State) : (heatLimitReached g s).hu.candidates = s.hu.candidates :=
  congrArg (fun w => w.hu.candidates) (occur_work .heatLimit g { s with hu.heatLimit := true })

/-- A heat update of a segment with a candidate. -/
theorem heatAbsent_of_candidate {g : Nat} {s : State} {x : Candidate} (h : candidateOf g s = some x) (c : Nat) :
    (heatAbsent g c s).1 = min 65535 (decayedHeat x.heat s + c)
      ∧ (heatAbsent g c s).2.hu.candidates = putCandidate { x with heat := updatedRec x.heat c s } s.hu.candidates := by
  unfold heatAbsent
  rw [h]
  refine ⟨rfl, ?_⟩
  dsimp only
  split
  · exact heatLimitReached_candidates _ _
  · rfl

/-- What a heat update of a segment without candidate answers. -/
theorem heatAbsent_answer {g : Nat} {s : State} (h : candidateOf g s = none) (c : Nat) : (heatAbsent g c s).1 = c := by
  unfold heatAbsent
  rw [h]
  dsimp only
  split
  · rfl
  · split
    · rfl
    · split
      · split <;> rfl
      · rfl

theorem heatAbsent_zero {g : Nat} {s : State} (h : candidateOf g s = none) : (heatAbsent g 0 s).2 = s := by
  unfold heatAbsent
  rw [h]
  simp

theorem heatAbsent_empty {g c p : Nat} {s : State} (h : candidateOf g s = none) (hc : 1 ≤ c)
    (hp : emptyWay (candidateSet g) s = some p) :
    (heatAbsent g c s).2 = storeCandidate ⟨p, g, ⟨c, s.hu.epoch, false⟩⟩ s := by
  unfold heatAbsent
  rw [h]
  dsimp only
  rw [if_neg (by omega), hp]

theorem heatAbsent_full {g c : Nat} {s : State} {v : Candidate} (h : candidateOf g s = none) (hc : 1 ≤ c)
    (hp : emptyWay (candidateSet g) s = none) (hv : coldest s (candidatesOf (candidateSet g) s) = some v) :
    (heatAbsent g c s).2 =
      if decayedHeat v.heat s ≤ c then storeCandidate ⟨v.place, g, ⟨c, s.hu.epoch, false⟩⟩ s
      else bump .candidateDrops s := by
  unfold heatAbsent
  rw [h]
  dsimp only
  rw [if_neg (by omega), hp, hv]
  dsimp only
  split <;> rfl

/-- A heat update of an absent segment keeps the Candidate Table well formed (R38). -/
theorem heatAbsent_candidatesWf {g c : Nat} {s : State} (h : candidatesWf s.hu.candidates) :
    candidatesWf (heatAbsent g c s).2.hu.candidates := by
  cases hx : candidateOf g s with
  | some x =>
    obtain ⟨hxmem, hxg⟩ := candidateOf_some hx
    rw [(heatAbsent_of_candidate hx c).2]
    refine candidatesWf_putCandidate h (h.2.2 x hxmem) fun y hy hyg => ?_
    rw [h.eq_of_segment hy hxmem hyg]
  | none =>
    have hother : ∀ y ∈ s.hu.candidates, y.segment ≠ g := by
      intro y hy hyg
      simp [candidateOf_eq_some h hy hyg] at hx
    rcases Nat.eq_zero_or_pos c with rfl | hc
    · rw [heatAbsent_zero hx]
      exact h
    · cases hp : emptyWay (candidateSet g) s with
      | some p =>
        rw [heatAbsent_empty hx hc hp]
        exact candidatesWf_putCandidate h (emptyWay_some hp).1 fun y hy hyg => absurd hyg (hother y hy)
      | none =>
        cases hv : coldest s (candidatesOf (candidateSet g) s) with
        | some v =>
          rw [heatAbsent_full hx hc hp hv]
          split
          · have hvset : v.place / 4 = candidateSet g := by simpa using List.of_mem_filter (coldest_mem hv)
            exact candidatesWf_putCandidate h hvset fun y hy hyg => absurd hyg (hother y hy)
          · rw [bump_hu]
            exact h
        | none =>
          have : (heatAbsent g c s).2 = s := by
            unfold heatAbsent
            rw [hx]
            dsimp only
            rw [if_neg (by omega), hp, hv]
          rw [this]
          exact h

/-- Settles O50. -/
theorem candidateTableUpdate : Obligations.CandidateTableUpdate := by
  intro g c s hwf
  have hasc : placesAscend s.hu.candidates := (placesAscend_iff _).1 hwf.1
  refine ⟨heatAbsent_candidatesWf hwf, fun x hx hxg => ?_, fun hno => ?_⟩
  · obtain ⟨hans, hput⟩ := heatAbsent_of_candidate (candidateOf_eq_some hwf hx hxg) c
    refine ⟨hans, hput.trans ?_⟩
    rw [putCandidate_replace hasc hx]
    refine List.map_congr_left fun y hy => ?_
    have hsame : y.place = x.place ↔ y.segment = g :=
      ⟨fun he => by rw [hasc.eq_of_place hy hx he]; exact hxg, fun he => by rw [hwf.eq_of_segment hy hx (he.trans hxg.symm)]⟩
    simp only [hsame]
  · have hnone := candidateOf_eq_none hno
    refine ⟨heatAbsent_answer hnone c, ?_, fun p hc hp hfree hlower y => ?_, fun v hv hc hvset hfull hle hlt => ?_⟩
    · rintro rfl
      exact heatAbsent_zero hnone
    · rw [heatAbsent_empty hnone hc (emptyWay_eq_some hp hfree hlower)]
      refine (mem_putCandidate hasc y).trans ⟨?_, ?_⟩
      · rintro (rfl | ⟨hy, -⟩)
        · exact .inr rfl
        · exact .inl hy
      · rintro (hy | rfl)
        · exact .inr ⟨hy, hfree y hy⟩
        · exact .inl rfl
    · have hin : ∀ x, x ∈ candidatesOf (candidateSet g) s ↔ x ∈ s.hu.candidates ∧ x.place / 4 = g % 1024 := by
        simp [candidatesOf, candidateSet]
      have hcold : coldest s (candidatesOf (candidateSet g) s) = some v :=
        coldest_eq_some (hasc.filter _) ((hin v).2 ⟨hv, hvset⟩)
          (fun x hx => hle x ((hin x).1 hx).1 ((hin x).1 hx).2) fun x hx => hlt x ((hin x).1 hx).1 ((hin x).1 hx).2
      rw [heatAbsent_full hnone hc (emptyWay_eq_none hfull) hcold]
      refine ⟨fun hcold y => ?_, fun hhot => if_neg (by omega)⟩
      rw [if_pos hcold]
      refine (mem_putCandidate hasc y).trans ⟨?_, ?_⟩
      · rintro (rfl | ⟨hy, hne⟩)
        · exact .inr rfl
        · exact .inl ⟨hy, fun he => hne (by rw [he])⟩
      · rintro (⟨hy, hne⟩ | rfl)
        · exact .inr ⟨hy, fun he => hne (hasc.eq_of_place hy hv he)⟩
        · exact .inl rfl

end Sys2Proof.Machine

/-! ## The Stream Detector -/

namespace Sys2Proof.Machine

/-- The number of valid records. -/
def validCount (v : Vector StreamRec 8) : Nat := (Finset.univ.filter fun i : Fin 8 => v[i].valid = true).card

/-- The ranks of the valid records are distinct and lie below their number (R62). -/
def ranksWf (v : Vector StreamRec 8) : Prop :=
  (∀ i j : Fin 8, i ≠ j → v[i].valid = true → v[j].valid = true → v[i].rank ≠ v[j].rank)
    ∧ ∀ i : Fin 8, v[i].valid = true → v[i].rank < validCount v

/-- The valid records expect different LBAs (R65). -/
def nextsDiffer (v : Vector StreamRec 8) : Prop :=
  ∀ i j : Fin 8, i ≠ j → v[i].valid = true → v[j].valid = true → v[i].next ≠ v[j].next

theorem countP_valid_eq (v : Vector StreamRec 8) : (v.toList.countP fun r => r.valid) = validCount v := by
  have hl : v.toList = (List.finRange 8).map fun i => v[i] := by
    refine List.ext_getElem (by simp) fun n h1 h2 => ?_
    simp
  rw [hl, List.countP_map, validCount, Finset.card_filter, Fin.sum_univ_eight]
  simp [List.finRange_succ, List.countP_cons]
  omega

theorem streamsWf_iff (v : Vector StreamRec 8) : streamsWf v ↔ nextsDiffer v ∧ ranksWf v := by
  unfold streamsWf nextsDiffer ranksWf
  rw [countP_valid_eq]
  constructor
  · rintro ⟨h, hr⟩
    exact ⟨fun i j hij hi hj => (h i j hij hi hj).1, fun i j hij hi hj => (h i j hij hi hj).2, hr⟩
  · rintro ⟨hn, hd, hr⟩
    exact ⟨fun i j hij hi hj => ⟨hn i j hij hi hj, hd i j hij hi hj⟩, hr⟩

theorem validCount_le (v : Vector StreamRec 8) : validCount v ≤ 8 := by
  exact (Finset.card_filter_le _ _).trans (by simp)

/-! ### One record loses its train -/

theorem dropStream_same (j : Fin 8) (v : Vector StreamRec 8) : (dropStream j v)[j] = lostStream v[j] := by
  simp [dropStream]

theorem dropStream_other {j k : Fin 8} (h : k ≠ j) (v : Vector StreamRec 8) :
    (dropStream j v)[k] =
      if v[k].valid = true ∧ v[j].rank < v[k].rank then { v[k] with rank := v[k].rank - 1 } else v[k] := by
  simp [dropStream, h]

theorem dropStream_other_fields {j k : Fin 8} (h : k ≠ j) (v : Vector StreamRec 8) :
    (dropStream j v)[k].valid = v[k].valid ∧ (dropStream j v)[k].next = v[k].next
      ∧ (dropStream j v)[k].run = v[k].run := by
  rw [dropStream_other h]
  split <;> simp

theorem dropStream_valid (j k : Fin 8) (v : Vector StreamRec 8) :
    (dropStream j v)[k].valid = true ↔ v[k].valid = true ∧ k ≠ j := by
  by_cases h : k = j
  · subst h
    rw [dropStream_same]
    simp [lostStream]
  · rw [(dropStream_other_fields h v).1]
    exact ⟨fun hv => ⟨hv, h⟩, And.left⟩

/-- The rank of a valid record after another one has lost its train. -/
theorem dropStream_rank {j k : Fin 8} (h : k ≠ j) {v : Vector StreamRec 8} (hv : v[k].valid = true) :
    (dropStream j v)[k].rank = if v[j].rank < v[k].rank then v[k].rank - 1 else v[k].rank := by
  rw [dropStream_other h]
  simp only [hv, true_and]
  split <;> rfl

theorem validCount_dropStream {j : Fin 8} {v : Vector StreamRec 8} (h : v[j].valid = true) :
    validCount (dropStream j v) + 1 = validCount v := by
  have hset : (Finset.univ.filter fun k : Fin 8 => (dropStream j v)[k].valid = true)
      = (Finset.univ.filter fun k : Fin 8 => v[k].valid = true).erase j := by
    ext k
    simp only [Finset.mem_filter, Finset.mem_univ, true_and, Finset.mem_erase, dropStream_valid]
    exact and_comm
  unfold validCount
  rw [hset]
  exact Finset.card_erase_add_one (by simpa using h)

theorem ranksWf_dropStream {j : Fin 8} {v : Vector StreamRec 8} (hj : v[j].valid = true) (h : ranksWf v) :
    ranksWf (dropStream j v) := by
  obtain ⟨hd, hr⟩ := h
  have hcount := validCount_dropStream hj
  refine ⟨fun a b hab ha hb => ?_, fun a ha => ?_⟩
  · obtain ⟨ha, haj⟩ := (dropStream_valid j a v).1 ha
    obtain ⟨hb, hbj⟩ := (dropStream_valid j b v).1 hb
    have h1 := hd a b hab ha hb
    have h2 := hd a j haj ha hj
    have h3 := hd b j hbj hb hj
    rw [dropStream_rank haj ha, dropStream_rank hbj hb]
    split <;> split <;> omega
  · obtain ⟨ha, haj⟩ := (dropStream_valid j a v).1 ha
    have h1 := hr a ha
    have h2 := hr j hj
    have h3 := hd a j haj ha hj
    rw [dropStream_rank haj ha]
    split <;> omega

/-! ### The duplicates of a record -/

/-- What dropping duplicates of record i among some records has done. -/
structure Dropped (i : Fin 8) (js : List (Fin 8)) (v w : Vector StreamRec 8) : Prop where
  ranks : ranksWf w
  kept  : w[i] = v[i]
  older : ∀ k : Fin 8, w[k].valid = true → v[k].valid = true ∧ w[k].next = v[k].next
  gone  : ∀ k ∈ js, k ≠ i → w[k].valid = true → w[k].next ≠ v[i].next

theorem dropStream_kept {i j : Fin 8} {v : Vector StreamRec 8} (hij : j ≠ i) (h0 : v[i].rank = 0) :
    (dropStream j v)[i] = v[i] := by
  rw [dropStream_other hij.symm]
  exact if_neg (by omega)

/-- One step of the dropping of duplicates: record j is dropped where it is a duplicate of record i. -/
def dropDuplicate (i : Fin 8) (w : Vector StreamRec 8) (j : Fin 8) : Vector StreamRec 8 :=
  if j ≠ i && w[j].valid && w[j].next == w[i].next then dropStream j w else w

theorem dropped_of_list (i : Fin 8) (js : List (Fin 8)) (v : Vector StreamRec 8) (hr : ranksWf v) (h0 : v[i].rank = 0) :
    Dropped i js v (js.foldl (dropDuplicate i) v) := by
  induction js generalizing v with
  | nil => exact ⟨hr, rfl, fun k h => ⟨h, rfl⟩, by simp⟩
  | cons j js ih =>
    rw [List.foldl_cons]
    by_cases h : j ≠ i ∧ v[j].valid = true ∧ v[j].next = v[i].next
    · obtain ⟨hji, hjv, hjn⟩ := h
      have hstep : dropDuplicate i v j = dropStream j v := if_pos (by rw [hjv, hjn]; simp [hji])
      have hkept : (dropStream j v)[i] = v[i] := dropStream_kept hji h0
      rw [hstep]
      obtain ⟨hw, hk, ho, hg⟩ := ih (dropStream j v) (ranksWf_dropStream hjv hr) (by rw [hkept]; exact h0)
      rw [hkept] at hk hg
      refine ⟨hw, hk, fun k hkv => ?_, fun k hkmem hki hkv => ?_⟩
      · obtain ⟨hkd, hkn⟩ := ho k hkv
        obtain ⟨hkv', hkj⟩ := (dropStream_valid j k v).1 hkd
        exact ⟨hkv', hkn.trans (dropStream_other_fields hkj v).2.1⟩
      · rcases List.mem_cons.1 hkmem with rfl | hkmem
        · exact absurd rfl ((dropStream_valid k k v).1 (ho k hkv).1).2
        · exact hg k hkmem hki hkv
    · have hstep : dropDuplicate i v j = v := if_neg (by simpa [-Fin.getElem_fin, and_assoc] using h)
      rw [hstep]
      obtain ⟨hw, hk, ho, hg⟩ := ih v hr h0
      refine ⟨hw, hk, ho, fun k hkmem hki hkv => ?_⟩
      rcases List.mem_cons.1 hkmem with rfl | hkmem
      · rw [(ho k hkv).2]
        exact fun hkn => h ⟨hki, (ho k hkv).1, hkn⟩
      · exact hg k hkmem hki hkv

theorem dropDuplicates_dropped (i : Fin 8) (v : Vector StreamRec 8) (hr : ranksWf v) (h0 : v[i].rank = 0) :
    Dropped i (List.finRange 8) v (dropDuplicates i v) := dropped_of_list i _ v hr h0

/-! ### A train stored -/

/-- The records with record i just used, before duplicates are dropped. -/
def usedStream (i : Fin 8) (former : Nat) (r : StreamRec) (v : Vector StreamRec 8) : Vector StreamRec 8 :=
  rankUse i former (v.set i r)

theorem usedStream_same (i : Fin 8) (former : Nat) (r : StreamRec) (v : Vector StreamRec 8) :
    (usedStream i former r v)[i] = { r with rank := 0 } := by
  simp [usedStream, rankUse]

theorem usedStream_other {i j : Fin 8} (h : j ≠ i) (former : Nat) (r : StreamRec) (v : Vector StreamRec 8) :
    (usedStream i former r v)[j] =
      if v[j].valid = true ∧ v[j].rank < former then { v[j] with rank := v[j].rank + 1 } else v[j] := by
  have hne : i.val ≠ j.val := fun he => h (Fin.ext he.symm)
  simp [usedStream, rankUse, h, Vector.getElem_set_ne, hne]

theorem usedStream_other_fields {i j : Fin 8} (h : j ≠ i) (former : Nat) (r : StreamRec) (v : Vector StreamRec 8) :
    (usedStream i former r v)[j].valid = v[j].valid ∧ (usedStream i former r v)[j].next = v[j].next := by
  rw [usedStream_other h]
  split <;> simp

theorem usedStream_valid {i : Fin 8} {former : Nat} {r : StreamRec} {v : Vector StreamRec 8} (hr : r.valid = true)
    (k : Fin 8) : (usedStream i former r v)[k].valid = true ↔ k = i ∨ v[k].valid = true := by
  by_cases h : k = i
  · subst h
    rw [usedStream_same]
    simp [hr]
  · rw [(usedStream_other_fields h former r v).1]
    simp [h]

theorem validCount_usedStream {i : Fin 8} {former : Nat} {r : StreamRec} {v : Vector StreamRec 8} (hr : r.valid = true) :
    validCount (usedStream i former r v) = if v[i].valid = true then validCount v else validCount v + 1 := by
  have hset : (Finset.univ.filter fun k : Fin 8 => (usedStream i former r v)[k].valid = true)
      = insert i (Finset.univ.filter fun k : Fin 8 => v[k].valid = true) := by
    ext k
    simp only [Finset.mem_filter, Finset.mem_univ, true_and, Finset.mem_insert, usedStream_valid hr]
  unfold validCount
  rw [hset]
  split
  · next h => rw [Finset.insert_eq_self.2 (by simpa using h)]
  · next h => exact Finset.card_insert_of_notMem (by simpa using h)

/-- The rank that a record gives up when it is used: its own, or 8 for a record that held none or the last (R62, R64). -/
def Former (i : Fin 8) (former : Nat) (v : Vector StreamRec 8) : Prop :=
  (v[i].valid = true ∧ former = v[i].rank) ∨ (v[i].valid = false ∧ former = 8)
    ∨ (v[i].valid = true ∧ v[i].rank = 7 ∧ former = 8)

theorem ranksWf_usedStream {i : Fin 8} {former : Nat} {r : StreamRec} {v : Vector StreamRec 8} (hr : r.valid = true)
    (hf : Former i former v) (h : ranksWf v) : ranksWf (usedStream i former r v) := by
  obtain ⟨hd, hlt⟩ := h
  have hcount := validCount_usedStream (i := i) (former := former) (v := v) hr
  have hle := validCount_le v
  have hlow : ∀ k : Fin 8, k ≠ i → v[k].valid = true →
      (if v[k].rank < former then v[k].rank + 1 else v[k].rank) < validCount (usedStream i former r v)
        ∧ (if v[k].rank < former then v[k].rank + 1 else v[k].rank) ≠ 0 ∧ v[k].rank ≠ former := by
    intro k hk hkv
    have hkr := hlt k hkv
    rw [hcount]
    rcases hf with ⟨hi, rfl⟩ | ⟨hi, rfl⟩ | ⟨hi, hi7, rfl⟩
    · have hne := hd k i hk hkv hi
      have hir := hlt i hi
      rw [if_pos hi]
      split <;> omega
    · rw [if_pos (by omega), if_neg (by rw [hi]; simp)]
      omega
    · have hne := hd k i hk hkv hi
      have hir := hlt i hi
      rw [if_pos hi, if_pos (by omega)]
      omega
  have hrank : ∀ k : Fin 8, k ≠ i → v[k].valid = true →
      (usedStream i former r v)[k].rank = if v[k].rank < former then v[k].rank + 1 else v[k].rank := by
    intro k hk hkv
    rw [usedStream_other hk]
    simp only [hkv, true_and]
    split <;> rfl
  refine ⟨fun a b hab ha hb => ?_, fun a ha => ?_⟩
  · rcases (usedStream_valid hr a).1 ha with rfl | ha' <;> rcases (usedStream_valid hr b).1 hb with rfl | hb'
    · exact absurd rfl hab
    · rw [usedStream_same, hrank b hab.symm hb']
      exact ((hlow b hab.symm hb').2.1).symm
    · rw [usedStream_same, hrank a hab ha']
      exact (hlow a hab ha').2.1
    · by_cases hai : a = i
      · subst hai
        rw [usedStream_same, hrank b hab.symm hb']
        exact ((hlow b hab.symm hb').2.1).symm
      · by_cases hbi : b = i
        · subst hbi
          rw [usedStream_same, hrank a hab ha']
          exact (hlow a hab ha').2.1
        · rw [hrank a hai ha', hrank b hbi hb']
          have hne := hd a b hab ha' hb'
          have haf := (hlow a hai ha').2.2
          have hbf := (hlow b hbi hb').2.2
          split <;> split <;> omega
  · by_cases hai : a = i
    · subst hai
      rw [usedStream_same, hcount]
      dsimp only
      split
      · next h => exact Nat.lt_of_le_of_lt (Nat.zero_le _) (hlt a h)
      · omega
    · have hav := ((usedStream_valid hr a).1 ha).resolve_left hai
      rw [hrank a hai hav]
      exact (hlow a hai hav).1

/-- A train stored in a record that gives up its former rank: the records stay well formed and it holds the train. -/
theorem storeStream_wf {i : Fin 8} {former : Nat} {v : Vector StreamRec 8} (hf : Former i former v) (h : streamsWf v)
    (next run : Nat) :
    streamsWf (storeStream i former next run v)
      ∧ (storeStream i former next run v)[i] = ⟨true, next, min 65535 run, 0⟩ := by
  obtain ⟨hn, hr⟩ := (streamsWf_iff v).1 h
  let r : StreamRec := ⟨true, next, min 65535 run, 0⟩
  have hu : (usedStream i former r v)[i] = r := usedStream_same i former r v
  have hd := dropDuplicates_dropped i (usedStream i former r v) (ranksWf_usedStream rfl hf hr) (by rw [hu])
  have hstore : storeStream i former next run v = dropDuplicates i (usedStream i former r v) := rfl
  rw [hstore]
  refine ⟨(streamsWf_iff _).2 ⟨fun a b hab ha hb => ?_, hd.ranks⟩, hd.kept.trans hu⟩
  have hold : ∀ k, k ≠ i → (dropDuplicates i (usedStream i former r v))[k].valid = true →
      v[k].valid = true ∧ (dropDuplicates i (usedStream i former r v))[k].next = v[k].next := by
    intro k hk hkv
    obtain ⟨h1, h2⟩ := hd.older k hkv
    obtain ⟨h3, h4⟩ := usedStream_other_fields hk former r v
    exact ⟨h3 ▸ h1, h2.trans h4⟩
  by_cases hai : a = i
  · subst hai
    rw [hd.kept]
    exact (hd.gone b (List.mem_finRange b) hab.symm hb).symm
  · by_cases hbi : b = i
    · subst hbi
      rw [hd.kept]
      exact hd.gone a (List.mem_finRange a) hab ha
    · obtain ⟨hav, han⟩ := hold a hai ha
      obtain ⟨hbv, hbn⟩ := hold b hbi hb
      rw [han, hbn]
      exact hn a b hab hav hbv

/-! ### The record a new train fills -/

theorem matchingStream_eq_some {start : Nat} {v : Vector StreamRec 8} (h : nextsDiffer v) {i : Fin 8}
    (hi : v[i].valid = true) (hn : v[i].next = start) : matchingStream start v = some i := by
  have hsome : (matchingStream start v).isSome = true := List.find?_isSome.2 ⟨i, List.mem_finRange i, by simp [-Fin.getElem_fin, hi, hn]⟩
  obtain ⟨j, hj⟩ := Option.isSome_iff_exists.1 hsome
  have hjv : v[j].valid = true ∧ v[j].next = start := by simpa using List.find?_some hj
  by_cases hij : i = j
  · rw [hij]
    exact hj
  · exact absurd (hn.trans hjv.2.symm) (h i j hij hi hjv.1)

/-- Where all eight records are valid, one of them holds the last rank. -/
theorem exists_rank_seven {v : Vector StreamRec 8} (h : ranksWf v) (hall : ∀ j : Fin 8, v[j].valid = true) :
    ∃ i : Fin 8, v[i].rank = 7 := by
  have hlt : ∀ j : Fin 8, v[j].rank < 8 := fun j => Nat.lt_of_lt_of_le (h.2 j (hall j)) (validCount_le v)
  have hinj : Function.Injective fun j : Fin 8 => (⟨v[j].rank, hlt j⟩ : Fin 8) := by
    intro a b hab
    by_contra hne
    exact h.1 a b hne (hall a) (hall b) (by simpa using hab)
  obtain ⟨i, hi⟩ := Finite.injective_iff_surjective.1 hinj 7
  exact ⟨i, congrArg Fin.val hi⟩

theorem streamToFill_invalid {v : Vector StreamRec 8} {i : Fin 8} (hi : v[i].valid = false)
    (hlow : ∀ j : Fin 8, j < i → v[j].valid = true) : streamToFill v = i := by
  have hfind : ((List.finRange 8).find? fun i => !v[i].valid) = some i := by
    rw [List.find?_eq_some_iff_getElem]
    refine ⟨by simp [-Fin.getElem_fin, hi], i.val, by simp, by simp, fun j hj => ?_⟩
    simpa using hlow ⟨j, by omega⟩ hj
  unfold streamToFill
  rw [hfind]

theorem streamToFill_full {v : Vector StreamRec 8} (h : ranksWf v) (hall : ∀ j : Fin 8, v[j].valid = true) {i : Fin 8}
    (hi : v[i].rank = 7) : streamToFill v = i := by
  have hnone : ((List.finRange 8).find? fun i => !v[i].valid) = none := by simpa using hall
  have hsome : ((List.finRange 8).find? fun i => v[i].rank == 7).isSome = true :=
    List.find?_isSome.2 ⟨i, List.mem_finRange i, by simp [-Fin.getElem_fin, hi]⟩
  obtain ⟨j, hj⟩ := Option.isSome_iff_exists.1 hsome
  have hj7 : v[j].rank = 7 := by simpa using List.find?_some hj
  have hij : j = i := by
    by_contra hne
    exact h.1 j i hne (hall j) (hall i) (hj7.trans hi.symm)
  unfold streamToFill
  rw [hnone]
  simp [-Fin.getElem_fin, hj, hij]

theorem former_streamToFill {v : Vector StreamRec 8} (h : ranksWf v) : Former (streamToFill v) 8 v := by
  by_cases hall : ∀ j : Fin 8, v[j].valid = true
  · obtain ⟨i, hi⟩ := exists_rank_seven h hall
    rw [streamToFill_full h hall hi]
    exact .inr (.inr ⟨hall i, hi, rfl⟩)
  · have hinv : v[streamToFill v].valid = false := by
      cases hf : (List.finRange 8).find? fun i => !v[i].valid with
      | some i =>
        have hto : streamToFill v = i := by
          unfold streamToFill
          rw [hf]
        simp only [hto]
        simpa using List.find?_some hf
      | none =>
        refine absurd (fun j => ?_) hall
        simpa using List.find?_eq_none.1 hf j (List.mem_finRange j)
    exact .inr (.inl ⟨hinv, rfl⟩)

/-- A consultation keeps the records well formed (R62 to R65). -/
theorem consultStreams_wf (start length : Nat) {s : State} (h : streamsWf s.streams) :
    streamsWf (consultStreams start length s).2.streams := by
  obtain ⟨-, hr⟩ := (streamsWf_iff _).1 h
  unfold consultStreams
  split
  · next i hi =>
    have hv : s.streams[i].valid = true := (by simpa using List.find?_some hi : _ ∧ _).1
    exact (storeStream_wf (.inl ⟨hv, rfl⟩) h _ _).1
  · exact (storeStream_wf (former_streamToFill hr) h _ _).1

/-- Settles O51. -/
theorem streamConsultation : Obligations.StreamConsultation := by
  intro start length s h
  obtain ⟨hn, hr⟩ := (streamsWf_iff _).1 h
  refine ⟨consultStreams_wf start length h, fun i hi hnext => ?_, fun hno => ?_, ?_⟩
  · have hm := matchingStream_eq_some hn hi hnext
    have hc : consultStreams start length s = (decide (s.params.streamThreshold ≤ s.streams[i].run),
        touch 4 { s with
          streams := storeStream i s.streams[i].rank (start + length) (s.streams[i].run + length) s.streams }) := by
      unfold consultStreams
      rw [hm]
    rw [hc]
    exact ⟨rfl, (storeStream_wf (.inl ⟨hi, rfl⟩) h _ _).2⟩
  · have hm : matchingStream start s.streams = none := by simpa [matchingStream] using hno
    have hc : consultStreams start length s = (false,
        touch 4 { s with streams := storeStream (streamToFill s.streams) 8 (start + length) length s.streams }) := by
      unfold consultStreams
      rw [hm]
    rw [hc]
    refine ⟨rfl, fun i hi => ?_⟩
    have hfill : streamToFill s.streams = i := by
      rcases hi with ⟨hi, hlow⟩ | ⟨hall, hi⟩
      · exact streamToFill_invalid hi hlow
      · exact streamToFill_full hr hall hi
    have hf := former_streamToFill hr
    rw [hfill] at hf
    simp only [hfill, touch_streams]
    exact (storeStream_wf hf h _ _).2
  · unfold consultStreams
    split <;> simp [compBit]

end Sys2Proof.Machine

/-! ## Command Link records, written and read -/

namespace Sys2Proof.Machine

/-! ### Bytes -/

theorem leBytes_length (n v : Nat) : (leBytes n v).length = n := by
  induction n generalizing v with
  | zero => rfl
  | succ n ih => simp [leBytes, ih]

theorem readLE_append_left {as bs : List Byte} {o n : Nat} (h : o + n ≤ as.length) :
    readLE (as ++ bs) o n = readLE as o n := by
  induction n generalizing o with
  | zero => rfl
  | succ n ih =>
    have hget : (as ++ bs).getD o 0 = as.getD o 0 := List.getD_append _ _ _ _ (by omega)
    simp only [readLE, hget, ih (o := o + 1) (by omega)]

theorem readLE_append_right {as bs : List Byte} {o n : Nat} : readLE (as ++ bs) (as.length + o) n = readLE bs o n := by
  induction n generalizing o with
  | zero => rfl
  | succ n ih =>
    have hget : (as ++ bs).getD (as.length + o) 0 = bs.getD o 0 := by
      rw [List.getD_append_right _ _ _ _ (by omega), Nat.add_sub_cancel_left]
    simp only [readLE, hget, Nat.add_assoc, ih]

theorem readLE_cons (b : Byte) (bs : List Byte) (o n : Nat) : readLE (b :: bs) (o + 1) n = readLE bs o n := by
  have h := readLE_append_right (as := [b]) (bs := bs) (o := o) (n := n)
  rwa [List.length_singleton, Nat.add_comm] at h

theorem readLE_leBytes {n v : Nat} (h : v < 256 ^ n) : readLE (leBytes n v) 0 n = v := by
  induction n generalizing v with
  | zero => simp only [Nat.pow_zero] at h; simp only [readLE]; omega
  | succ n ih =>
    have hdiv : v / 256 < 256 ^ n := Nat.div_lt_of_lt_mul (by rw [Nat.pow_succ] at h; omega)
    simp only [leBytes, readLE, readLE_cons, ih hdiv, List.getD_cons_zero, BitVec.toNat_ofNat]
    omega

/-- A word written as bytes between others is read back. -/
theorem readLE_word {w n : Nat} (v : BitVec w) (hw : 2 ^ w = 256 ^ n) (pre post : List Byte) :
    BitVec.ofNat w (readLE (pre ++ (leBytes n v.toNat ++ post)) pre.length n) = v := by
  have hread : readLE (pre ++ (leBytes n v.toNat ++ post)) pre.length n = v.toNat := by
    have h := readLE_append_right (as := pre) (bs := leBytes n v.toNat ++ post) (o := 0) (n := n)
    rw [Nat.add_zero] at h
    rw [h, readLE_append_left (by simp [leBytes_length]), readLE_leBytes (hw ▸ v.isLt)]
  rw [hread, BitVec.ofNat_toNat, BitVec.setWidth_eq]

/-! ### The frame of a transaction record -/

theorem encodeTransaction_eq (kind : Byte) (h : TxnHead) {args : List Byte} (hlen : args.length ≤ 27) :
    encodeTransaction kind h args =
      0x08 :: kind :: h.seq :: 0 :: (args ++ (zeros (27 - args.length) ++ [if h.reservedClear then 0 else 1])) := by
  have hz : 31 - ([0x08, kind, h.seq] ++ [0] ++ args).length = 27 - args.length := by
    simp only [List.length_append, List.length_cons, List.length_nil]
    omega
  simp only [encodeTransaction, padTo, hz]
  simp

theorem encodeTransaction_length (kind : Byte) (h : TxnHead) {args : List Byte} (hlen : args.length ≤ 27) :
    (encodeTransaction kind h args).length = 32 := by
  rw [encodeTransaction_eq kind h hlen]
  simp only [List.length_append, List.length_cons, List.length_nil, zeros, List.length_replicate]
  omega

theorem decodeLink_encodeTransaction (kind : Byte) (h : TxnHead) {args : List Byte} (hlen : args.length ≤ 27) :
    decodeLink (encodeTransaction kind h args) = some (decodeTransaction (encodeTransaction kind h args)) := by
  have hl := encodeTransaction_length kind h hlen
  rw [encodeTransaction_eq kind h hlen] at hl ⊢
  simp only [decodeLink]
  rw [if_neg (by decide), if_neg (by decide), if_pos trivial, if_pos hl]

theorem getD_encodeTransaction (kind : Byte) (h : TxnHead) {args : List Byte} (hlen : args.length ≤ 27) {i : Nat}
    (hi : i < args.length) : (encodeTransaction kind h args).getD (i + 4) 0 = args.getD i 0 := by
  rw [encodeTransaction_eq kind h hlen]
  simp only [List.getD_cons_succ]
  exact List.getD_append _ _ _ _ hi

/-- The bytes that the arguments leave are clear exactly where the head says so. -/
theorem clearFrom_encodeTransaction (kind : Byte) (h : TxnHead) {args : List Byte} (hlen : args.length ≤ 27) :
    clearFrom (args.length + 4) (encodeTransaction kind h args) = h.reservedClear := by
  rw [encodeTransaction_eq kind h hlen]
  have hdrop : (0x08 :: kind :: h.seq :: 0 :: (args ++ (zeros (27 - args.length) ++ [if h.reservedClear then (0 : Byte) else 1]))).drop
      (args.length + 4) = zeros (27 - args.length) ++ [if h.reservedClear then 0 else 1] := by
    simp
  unfold clearFrom
  rw [hdrop]
  cases h.reservedClear <;> simp [zeros]

/-- A word among the arguments of a transaction is read back at its place. -/
theorem word_encodeTransaction {w : Nat} (v : BitVec w) (n : Nat) (hw : 2 ^ w = 256 ^ n) (kind : Byte) (h : TxnHead)
    {args : List Byte} (pre post : List Byte) (hargs : pre ++ (leBytes n v.toNat ++ post) = args) (hlen : args.length ≤ 27)
    {o : Nat} (ho : o = pre.length + 4) : BitVec.ofNat w (readLE (encodeTransaction kind h args) o n) = v := by
  subst ho
  have hcons : encodeTransaction kind h args = (0x08 :: kind :: h.seq :: 0 :: pre)
      ++ (leBytes n v.toNat ++ (post ++ (zeros (27 - args.length) ++ [if h.reservedClear then 0 else 1]))) := by
    rw [encodeTransaction_eq kind h hlen]
    simp [← hargs]
  rw [hcons]
  exact readLE_word v hw _ _

/-- What the reading of a transaction record of `used` bytes and otherwise reserved ones finds at its fixed places. -/
structure ReadsAs (kind : Byte) (h : TxnHead) (used : Nat) (bs : List Byte) : Prop where
  link  : decodeLink bs = some (decodeTransaction bs)
  kind  : bs.getD 1 0 = kind
  seq   : bs.getD 2 0 = h.seq
  byte3 : bs.getD 3 0 = 0
  clear : clearFrom used bs = h.reservedClear

theorem readsAs_encodeTransaction (kind : Byte) (h : TxnHead) {args : List Byte} (used : Nat) (hused : used = args.length + 4)
    (hlen : args.length ≤ 27) : ReadsAs kind h used (encodeTransaction kind h args) := by
  subst hused
  refine ⟨decodeLink_encodeTransaction kind h hlen, ?_, ?_, ?_, clearFrom_encodeTransaction kind h hlen⟩
  all_goals simp [encodeTransaction, padTo]

theorem twoFlags_bits (a b : Bool) :
    (twoFlags a b).getLsbD 0 = a ∧ (twoFlags a b).getLsbD 1 = b ∧ flagsWithin 2 (twoFlags a b) = true := by
  revert a b
  decide

theorem flagsWithin_one (a : Bool) : flagsWithin 1 (twoFlags a false) = true := by
  revert a
  decide

/-! ### The kinds -/

theorem decode_unknownKind {kind : Byte} {h : TxnHead} (hk : (Instr.unknownKind kind h).wellFormed = true) :
    decodeLink (encodeTransaction kind h []) = some (.unknownKind kind h) := by
  obtain ⟨hlink, h1, h2, h3, hclear⟩ := readsAs_encodeTransaction kind h (args := []) 4 (by simp) (by simp)
  have hout : kind.toNat = 0 ∨ 17 < kind.toNat := by simpa [Instr.wellFormed] using hk
  rw [hlink]
  simp only [decodeTransaction, h1, h2, h3, hclear]
  split
  all_goals first | omega | simp

theorem decode_configure (h : TxnHead) (n : BitVec 32) (p : BitVec 64) (c : BitVec 32) :
    decodeLink (encodeTransaction 1 h (leBytes 4 n.toNat ++ leBytes 8 p.toNat ++ leBytes 4 c.toNat))
      = some (.configure h n p c) := by
  generalize hargs : leBytes 4 n.toNat ++ leBytes 8 p.toNat ++ leBytes 4 c.toNat = args
  have hlen : args.length = 16 := by simp [← hargs, leBytes_length]
  obtain ⟨hlink, h1, h2, h3, hclear⟩ := readsAs_encodeTransaction 1 h (args := args) 20 (by omega) (by omega)
  have h4 := word_encodeTransaction n 4 (by norm_num) 1 h (args := args) [] (leBytes 8 p.toNat ++ leBytes 4 c.toNat)
    (by simp [← hargs]) (by omega) (o := 4) (by simp)
  have h8 := word_encodeTransaction p 8 (by norm_num) 1 h (args := args) (leBytes 4 n.toNat) (leBytes 4 c.toNat)
    (by simp [← hargs]) (by omega) (o := 8) (by simp [leBytes_length])
  have h16 := word_encodeTransaction c 4 (by norm_num) 1 h (args := args) (leBytes 4 n.toNat ++ leBytes 8 p.toNat) []
    (by simp [← hargs]) (by omega) (o := 16) (by simp [leBytes_length])
  rw [hlink]
  simp only [decodeTransaction, h1, h2, h3, hclear, h4, h8, h16]
  simp

theorem decode_loadRange (h : TxnHead) (slot : Byte) (on : Bool) (mode action : Byte) (start stop : BitVec 64) :
    decodeLink (encodeTransaction 3 h ([slot, twoFlags on false, mode, action] ++ leBytes 8 start.toNat ++ leBytes 8 stop.toNat))
      = some (.loadRange h slot on mode action start stop) := by
  generalize hargs : [slot, twoFlags on false, mode, action] ++ leBytes 8 start.toNat ++ leBytes 8 stop.toNat = args
  have hlen : args.length = 20 := by simp [← hargs, leBytes_length]
  obtain ⟨hlink, h1, h2, h3, hclear⟩ := readsAs_encodeTransaction 3 h (args := args) 24 (by omega) (by omega)
  have h4 := getD_encodeTransaction 3 h (args := args) (by omega) (i := 0) (by omega)
  have h5 := getD_encodeTransaction 3 h (args := args) (by omega) (i := 1) (by omega)
  have h6 := getD_encodeTransaction 3 h (args := args) (by omega) (i := 2) (by omega)
  have h7 := getD_encodeTransaction 3 h (args := args) (by omega) (i := 3) (by omega)
  have h8 := word_encodeTransaction start 8 (by norm_num) 3 h (args := args) [slot, twoFlags on false, mode, action]
    (leBytes 8 stop.toNat) (by simp [← hargs]) (by omega) (o := 8) (by simp)
  have h16 := word_encodeTransaction stop 8 (by norm_num) 3 h (args := args)
    ([slot, twoFlags on false, mode, action] ++ leBytes 8 start.toNat) [] (by simp [← hargs]) (by omega) (o := 16)
    (by simp [leBytes_length])
  have hbytes : args.getD 0 0 = slot ∧ args.getD 1 0 = twoFlags on false ∧ args.getD 2 0 = mode ∧ args.getD 3 0 = action := by
    simp [← hargs]
  obtain ⟨ha, hb, hc, hd⟩ := hbytes
  rw [hlink]
  simp only [decodeTransaction, h1, h2, h3, hclear, h4, h5, h6, h7, h8, h16, ha, hb, hc, hd, (twoFlags_bits on false).1,
    flagsWithin_one]
  simp

theorem decode_setParameter (h : TxnHead) (id : Byte) (v : BitVec 32) :
    decodeLink (encodeTransaction 4 h ([id, 0, 0, 0] ++ leBytes 4 v.toNat)) = some (.setParameter h id v) := by
  generalize hargs : [id, 0, 0, 0] ++ leBytes 4 v.toNat = args
  have hlen : args.length = 8 := by simp [← hargs, leBytes_length]
  obtain ⟨hlink, h1, h2, h3, hclear⟩ := readsAs_encodeTransaction 4 h (args := args) 12 (by omega) (by omega)
  have h4 := getD_encodeTransaction 4 h (args := args) (by omega) (i := 0) (by omega)
  have h5 := getD_encodeTransaction 4 h (args := args) (by omega) (i := 1) (by omega)
  have h6 := getD_encodeTransaction 4 h (args := args) (by omega) (i := 2) (by omega)
  have h7 := getD_encodeTransaction 4 h (args := args) (by omega) (i := 3) (by omega)
  have h8 := word_encodeTransaction v 4 (by norm_num) 4 h (args := args) [id, 0, 0, 0] [] (by simp [← hargs]) (by omega)
    (o := 8) (by simp)
  have hbytes : args.getD 0 0 = id ∧ args.getD 1 0 = 0 ∧ args.getD 2 0 = 0 ∧ args.getD 3 0 = 0 := by simp [← hargs]
  obtain ⟨ha, hb, hc, hd⟩ := hbytes
  rw [hlink]
  simp only [decodeTransaction, h1, h2, h3, hclear, h4, h5, h6, h7, h8, ha, hb, hc, hd]
  simp

theorem decode_prefetch (h : TxnHead) (start : BitVec 64) (count : Byte) :
    decodeLink (encodeTransaction 12 h (leBytes 8 start.toNat ++ [count])) = some (.prefetch h start count) := by
  generalize hargs : leBytes 8 start.toNat ++ [count] = args
  have hlen : args.length = 9 := by simp [← hargs, leBytes_length]
  obtain ⟨hlink, h1, h2, h3, hclear⟩ := readsAs_encodeTransaction 12 h (args := args) 13 (by omega) (by omega)
  have h4 := word_encodeTransaction start 8 (by norm_num) 12 h (args := args) [] [count] (by simp [← hargs]) (by omega)
    (o := 4) (by simp)
  have h12 := getD_encodeTransaction 12 h (args := args) (by omega) (i := 8) (by omega)
  have hcount : args.getD 8 0 = count := by simp [← hargs, leBytes_length]
  rw [hlink]
  simp only [decodeTransaction, h1, h2, h3, hclear, h4, h12, hcount]
  simp

theorem decode_querySegment (h : TxnHead) (segment : BitVec 64) :
    decodeLink (encodeTransaction 13 h (leBytes 8 segment.toNat)) = some (.querySegment h segment) := by
  generalize hargs : leBytes 8 segment.toNat = args
  have hlen : args.length = 8 := by simp [← hargs, leBytes_length]
  obtain ⟨hlink, h1, h2, h3, hclear⟩ := readsAs_encodeTransaction 13 h (args := args) 12 (by omega) (by omega)
  have h4 := word_encodeTransaction segment 8 (by norm_num) 13 h (args := args) [] [] (by simp [← hargs]) (by omega)
    (o := 4) (by simp)
  rw [hlink]
  simp only [decodeTransaction, h1, h2, h3, hclear, h4]
  simp

theorem decode_loadClass (h : TxnHead) (cls rw ww : Byte) (x y : Bool) :
    decodeLink (encodeTransaction 2 h [cls, rw, ww, twoFlags x y]) = some (.loadClass h cls rw ww x y) := by
  obtain ⟨hlink, h1, h2, h3, hclear⟩ :=
    readsAs_encodeTransaction 2 h (args := [cls, rw, ww, twoFlags x y]) 8 (by simp) (by simp)
  have hbytes : ∀ i, i < 4 → (encodeTransaction 2 h [cls, rw, ww, twoFlags x y]).getD (i + 4) 0
      = [cls, rw, ww, twoFlags x y].getD i 0 := fun i hi => getD_encodeTransaction 2 h (by simp) (by simpa using hi)
  have h4 := hbytes 0 (by omega)
  have h5 := hbytes 1 (by omega)
  have h6 := hbytes 2 (by omega)
  have h7 := hbytes 3 (by omega)
  obtain ⟨hx, hy, hf⟩ := twoFlags_bits x y
  rw [hlink]
  simp only [decodeTransaction, h1, h2, h3, hclear, h4, h5, h6, h7]
  simp only [List.getD_cons_succ, List.getD_cons_zero, hx, hy, hf]
  simp

theorem decode_readStatus (h : TxnHead) (x : Bool) :
    decodeLink (encodeTransaction 14 h [twoFlags x false]) = some (.readStatus h x) := by
  obtain ⟨hlink, h1, h2, h3, hclear⟩ := readsAs_encodeTransaction 14 h (args := [twoFlags x false]) 5 (by simp) (by simp)
  have h4 := getD_encodeTransaction 14 h (args := [twoFlags x false]) (by simp) (i := 0) (by simp)
  rw [hlink]
  simp only [decodeTransaction, h1, h2, h3, hclear, h4]
  simp only [List.getD_cons_zero, (twoFlags_bits x false).1, flagsWithin_one]
  simp

/-- The transactions whose argument is one byte. -/
theorem decode_oneByte (h : TxnHead) {a kind : Byte} {c : Instr}
    (hk : (kind, c) ∈ [((5 : Byte), Instr.reportSpindle h a), (8, .restore h a), (15, .initializeComponents h a)]) :
    decodeLink (encodeTransaction kind h [a]) = some c := by
  obtain ⟨hlink, h1, h2, h3, hclear⟩ := readsAs_encodeTransaction kind h (args := [a]) 5 (by simp) (by simp)
  have h4 := getD_encodeTransaction kind h (args := [a]) (by simp) (i := 0) (by simp)
  rw [hlink]
  simp only [decodeTransaction, h1, h2, h3, hclear, h4]
  simp only [List.mem_cons, Prod.mk.injEq, List.not_mem_nil, or_false] at hk
  rcases hk with ⟨rfl, rfl⟩ | ⟨rfl, rfl⟩ | ⟨rfl, rfl⟩ <;> simp

/-- The transactions whose arguments are two bytes. -/
theorem decode_twoBytes (h : TxnHead) {a b kind : Byte} {c : Instr}
    (hk : (kind, c) ∈ [((6 : Byte), Instr.setPortLevel h a b), (7, .save h a b)]) :
    decodeLink (encodeTransaction kind h [a, b]) = some c := by
  obtain ⟨hlink, h1, h2, h3, hclear⟩ := readsAs_encodeTransaction kind h (args := [a, b]) 6 (by simp) (by simp)
  have h4 := getD_encodeTransaction kind h (args := [a, b]) (by simp) (i := 0) (by simp)
  have h5 := getD_encodeTransaction kind h (args := [a, b]) (by simp) (i := 1) (by simp)
  rw [hlink]
  simp only [decodeTransaction, h1, h2, h3, hclear, h4, h5]
  simp only [List.mem_cons, Prod.mk.injEq, List.not_mem_nil, or_false] at hk
  rcases hk with ⟨rfl, rfl⟩ | ⟨rfl, rfl⟩ <;> simp

/-- The transactions without arguments. -/
theorem decode_bare (h : TxnHead) {kind : Byte} {c : Instr}
    (hk : (kind, c) ∈ [((9 : Byte), Instr.rebuild h), (10, .goOnline h), (11, .goOffline h), (16, .cancelBackground h),
      (17, .resetEngine h)]) : decodeLink (encodeTransaction kind h []) = some c := by
  obtain ⟨hlink, h1, h2, h3, hclear⟩ := readsAs_encodeTransaction kind h (args := []) 4 (by simp) (by simp)
  rw [hlink]
  simp only [decodeTransaction, h1, h2, h3, hclear]
  simp only [List.mem_cons, Prod.mk.injEq, List.not_mem_nil, or_false] at hk
  rcases hk with ⟨rfl, rfl⟩ | ⟨rfl, rfl⟩ | ⟨rfl, rfl⟩ | ⟨rfl, rfl⟩ | ⟨rfl, rfl⟩ <;> simp

/-! ### Descriptors -/

theorem commandKindOf_code (k : CommandKind) : commandKindOf ((commandKindCode k).truncate 2) = k := by cases k <;> decide

theorem decodeDescriptor_encodeDescriptor (d : Descriptor) : decodeDescriptor (encodeDescriptor d) = d := by
  obtain ⟨kind, tag, cls, start, length, buffer⟩ := d
  have hstart := readLE_word start (n := 5) (by norm_num) [0x01, commandKindCode kind, BitVec.ofNat 8 tag.val, BitVec.ofNat 8 cls.val]
    ([0] ++ leBytes 2 length.toNat ++ leBytes 4 buffer.toNat)
  have hlength := readLE_word length (n := 2) (by norm_num)
    ([0x01, commandKindCode kind, BitVec.ofNat 8 tag.val, BitVec.ofNat 8 cls.val] ++ leBytes 5 start.toNat ++ [0])
    (leBytes 4 buffer.toNat)
  have hbuffer := readLE_word buffer (n := 4) (by norm_num)
    ([0x01, commandKindCode kind, BitVec.ofNat 8 tag.val, BitVec.ofNat 8 cls.val] ++ leBytes 5 start.toNat ++ [0]
      ++ leBytes 2 length.toNat) []
  simp only [List.length_append, leBytes_length, List.length_cons, List.length_nil, List.append_assoc, List.append_nil] at hstart hlength hbuffer
  simp only [decodeDescriptor, encodeDescriptor, List.append_assoc, Descriptor.mk.injEq]
  refine ⟨?_, ?_, ?_, hstart, hlength, hbuffer⟩
  · exact commandKindOf_code kind
  · apply Fin.ext
    simp
  · apply Fin.ext
    simp

theorem decodeLink_encodeDescriptor (d : Descriptor) : decodeLink (encodeDescriptor d) = some (.commandDescriptor d) := by
  have hdec := decodeDescriptor_encodeDescriptor d
  have hlen : (encodeDescriptor d).length = 16 := by simp [encodeDescriptor, leBytes_length]
  obtain ⟨rest, hrest⟩ : ∃ rest, encodeDescriptor d = 0x01 :: rest := ⟨_, rfl⟩
  rw [hrest] at hdec hlen ⊢
  simp only [decodeLink]
  rw [if_pos trivial, if_pos hlen, hdec]

theorem decodeLink_discarded {type : Byte} (h : (Instr.discardedRecord type).wellFormed = true) :
    decodeLink [type] = some (.discardedRecord type) := by
  have hout : type ≠ 1 ∧ type ≠ 2 ∧ type ≠ 8 := by simpa [Instr.wellFormed, knownRecordTypes] using h
  simp only [decodeLink]
  rw [if_neg hout.1, if_neg hout.2.1, if_neg hout.2.2]

/-- Settles O60. -/
theorem decodeOfEncode : Obligations.DecodeOfEncode := by
  refine ⟨fun c => by cases c <;> simp [encodeLink, txnOf], fun c bs hwf henc => ?_⟩
  cases c
  all_goals first | (cases henc; done) | (simp only [encodeLink, Option.some.injEq] at henc; subst henc)
  case commandDescriptor d => exact decodeLink_encodeDescriptor d
  case linkReset => rfl
  case discardedRecord type => exact decodeLink_discarded hwf
  case unknownKind kind h => exact decode_unknownKind hwf
  case configure h n p c => exact decode_configure h n p c
  case loadClass h cls rw ww a b => exact decode_loadClass h cls rw ww a b
  case loadRange h slot on mode action start stop => exact decode_loadRange h slot on mode action start stop
  case setParameter h id v => exact decode_setParameter h id v
  case readStatus h clear => exact decode_readStatus h clear
  case reportSpindle h st => exact decode_oneByte h (by simp)
  case restore h set => exact decode_oneByte h (by simp)
  case initializeComponents h named => exact decode_oneByte h (by simp)
  case setPortLevel h port level => exact decode_twoBytes h (by simp)
  case save h set mode => exact decode_twoBytes h (by simp)
  case prefetch h start count => exact decode_prefetch h start count
  case querySegment h segment => exact decode_querySegment h segment
  case rebuild h => exact decode_bare h (by simp)
  case goOnline h => exact decode_bare h (by simp)
  case goOffline h => exact decode_bare h (by simp)
  case cancelBackground h => exact decode_bare h (by simp)
  case resetEngine h => exact decode_bare h (by simp)

end Sys2Proof.Machine

/-! ## What every operation of the blocks keeps

A predicate closed under the plain changes that an operation is made of is kept by the operation. `Base` lists the changes of
the reports, the ports and the pieces, `Moving` adds those of the moves, and `Core` those of the map; one lemma per operation
follows, in the order of the files. -/

namespace Sys2Proof.Machine

/-- A change of a port's queues that puts no order into the Foreground queue; the orders outstanding, the starvation count and
the level stay. -/
structure Requeued (q q' : Scheduler) : Prop where
  outstanding : q'.outstanding = q.outstanding
  starvation : q'.starvation = q.starvation
  level : q'.level = q.level
  foreground : q'.foreground.length ≤ q.foreground.length

/-- A change of the Platter Monitor that a report to the work view can make. -/
structure Reworked (m m' : PlatterMonitor) : Prop where
  state : m'.state = m.state
  watch : m'.watch = m.watch
  excursion : m'.excursion = m.excursion
  degraded : m'.degraded = m.degraded
  armed : m'.quietArmed = m.quietArmed
  spinUp : atRest m.state = false → m'.spinUpRequested = m.spinUpRequested

/-- The frames that a Rebuild under way has classed TRIMMING and RETIRED; none outside a Rebuild. -/
def classesOf : CuOperation → Option (List Nat × List Nat)
  | .rebuilding p => some (p.trimming, p.retired)
  | .idle | .quiescing _ _ | .saving _ | .restoreDraining _ | .restoring _ | .rebuildDraining => none

/-- A step of the Checkpoint Unit's operation that other units call for: its kind and its classes stay, and it stays altogether
where no order waits and no Rebuild reads labels. -/
structure Advanced (o o' : CuOperation) : Prop where
  kind : opKind o' = opKind o
  classes : classesOf o' = classesOf o
  settled : waitingOrder o = none → opKind o ≠ 6 → o' = o

/-- A change of the Command Tracker that other units call for: the occupied slots and the Arrival List stay, a pass called for
stays so, no command becomes HELD or OPEN, and a piece keeps its state or is released to wait for a reason. -/
structure Steadied (w : WaitReason) (a b : CommandTracker) : Prop where
  tags : tagsOf b.slots = tagsOf a.slots
  arrival : b.arrival = a.arrival
  pass : a.passDue = true → b.passDue = true
  commands : ∀ (tag : Fin 32) (y : Command), b.slots[tag].command = some y → ∃ x, a.slots[tag].command = some x
    ∧ y.held = x.held ∧ ∀ q ∈ y.pieces, ∃ p ∈ x.pieces, q.state = p.state ∨ q.state = .waiting w

theorem classesOf_clearWaiting (o : CuOperation) : classesOf (clearWaiting o) = classesOf o := by cases o <;> rfl

theorem tags_of_calm {s t : State} (h : calmPart t = calmPart s) : tagsOf t.ct.slots = tagsOf s.ct.slots :=
  congrArg CalmPart.tags h

theorem isSome_of_calm {s t : State} (h : calmPart t = calmPart s) (tag : Fin 32) :
    (commandOf tag t).isSome = (commandOf tag s).isSome := by
  rw [commandOf_isSome_eq, commandOf_isSome_eq, tags_of_calm h]

theorem commandOf_modifyCommand (tag : Fin 32) (f : Command → Command) (s : State) :
    commandOf tag (modifyCommand tag f s) = (commandOf tag s).map f :=
  congrArg TagSlot.command modifyCommand_same

theorem commandOf_modifyCommand_other {tag other : Fin 32} (h : other ≠ tag) (f : Command → Command) (s : State) :
    commandOf other (modifyCommand tag f s) = commandOf other s := by
  have hne : tag.val ≠ other.val := fun he => h (Fin.ext he.symm)
  simp [commandOf, modifyCommand, Vector.getElem_set_ne, hne]

theorem commandOf_mapPieces (f : Fin 32 → Command → Piece → Piece) (s : State) (tag : Fin 32) :
    commandOf tag (mapPieces f s) = (commandOf tag s).map fun c => { c with pieces := c.pieces.map (f tag c) } := by
  simp [commandOf, mapPieces]

/-- A command changed so that its HELD mark and the state of each piece stay. -/
theorem steadied_modifyCommand (w : WaitReason) (tag : Fin 32) {f : Command → Command} (s : State)
    (hheld : ∀ x, (f x).held = x.held) (hpieces : ∀ x, ∀ q ∈ (f x).pieces, ∃ p ∈ x.pieces, q.state = p.state) :
    Steadied w s.ct (modifyCommand tag f s).ct := by
  refine ⟨tags_of_calm (modifyCommand_calm tag f s), rfl, id, fun other y hy => ?_⟩
  have hy : commandOf other (modifyCommand tag f s) = some y := hy
  by_cases hot : other = tag
  · subst hot
    rw [commandOf_modifyCommand] at hy
    obtain ⟨x, hx, rfl⟩ := Option.map_eq_some_iff.1 hy
    refine ⟨x, hx, hheld x, fun q hq => ?_⟩
    obtain ⟨p, hp, hst⟩ := hpieces x q hq
    exact ⟨p, hp, .inl hst⟩
  · rw [commandOf_modifyCommand_other hot] at hy
    exact ⟨y, hy, rfl, fun q hq => ⟨q, hq, .inl rfl⟩⟩

/-- Pieces mapped so that each keeps its state or waits for a reason. -/
theorem steadied_mapPieces {w : WaitReason} {f : Fin 32 → Command → Piece → Piece} (s : State)
    (hf : ∀ t c p, (f t c p).state = p.state ∨ (f t c p).state = .waiting w) : Steadied w s.ct (mapPieces f s).ct := by
  refine ⟨tags_of_calm (mapPieces_calm f s), mapPieces_ct_arrival f s, fun h => (mapPieces_ct_passDue f s).trans h,
    fun tag y hy => ?_⟩
  have hy : commandOf tag (mapPieces f s) = some y := hy
  rw [commandOf_mapPieces] at hy
  obtain ⟨x, hx, rfl⟩ := Option.map_eq_some_iff.1 hy
  refine ⟨x, hx, rfl, fun q hq => ?_⟩
  obtain ⟨p, hp, rfl⟩ := List.mem_map.1 hq
  exact ⟨p, hp, hf tag x p⟩

theorem steadied_passDue (w : WaitReason) (s : State) : Steadied w s.ct (callPass s).ct :=
  ⟨rfl, rfl, fun _ => rfl, fun _ y hy => ⟨y, hy, rfl, fun q hq => ⟨q, hq, .inl rfl⟩⟩⟩

/-- A change of a piece that keeps its segment is what the piece's own reading finds. -/
theorem pieceOf_modifyPiece {tag : Fin 32} {segment : Nat} {f : Piece → Piece} {s : State}
    (hf : ∀ p, (f p).segment = p.segment) :
    pieceOf tag segment (modifyPiece tag segment f s) = (pieceOf tag segment s).map f := by
  unfold pieceOf modifyPiece
  rw [commandOf_modifyCommand]
  cases commandOf tag s with
  | none => rfl
  | some c =>
    simp only [Option.map_some, Option.bind_some, mapPiece, List.find?_map]
    have hsame : ((fun p : Piece => p.segment == segment) ∘ fun p => if (p.segment == segment) = true then f p else p)
        = fun p => p.segment == segment := by
      funext p
      simp only [Function.comp]
      split <;> simp_all
    rw [hsame]
    cases hp : c.pieces.find? fun p => p.segment == segment with
    | none => rfl
    | some p =>
      have hseg : p.segment = segment := by simpa using List.find?_some hp
      simp [hseg]

/-- The predicates closed under the changes of the reports, the ports and the pieces. -/
structure Base (P : State → Prop) : Prop where
  touch : ∀ {s} c, P s → P (touch c s)
  occur : ∀ {s} k a, k ≠ .platterDegraded → k ≠ .platterRecovered → P s → P (occur k a s)
  monitor : ∀ {s} m, Reworked s.pm m → P s → P { s with pm := m }
  tracker : ∀ {s} c, Steadied (releasedReason s) s.ct c → P s → P { s with ct := c }
  held : ∀ {s} l, P s → P { s with held := l }
  operation : ∀ {s} o, Advanced s.cu.operation o → P s → P { s with cu.operation := o }
  flash : ∀ {s} q, Requeued s.fps q → P s → P { s with fps := q }
  platter : ∀ {s} q, Requeued s.pps q → P s → P { s with pps := q }
  reissued : ∀ {s} tag o, (commandOf tag s).isSome = true → s.pps.foreground.length < 64 → P s →
    P { s with pps.foreground := s.pps.foreground ++ [o] }

/-- The predicates closed under the changes of the moves and of the counters as well. -/
structure Moving (P : State → Prop) : Prop extends Base P where
  bump : ∀ {s} k, k ≠ .degradedEntries → P s → P (bump k s)
  moves : ∀ {s} m, P s → P { s with me := m }

/-- The predicates closed under the changes of the map as well. -/
structure Core (P : State → Prop) : Prop extends Moving P where
  map : ∀ {s} m, P s → P { s with sm := m }
  takeCandidate : ∀ {s} g, P s → P (takeCandidate g s).2

namespace Base

variable {P : State → Prop} (hP : Base P)
include hP

/-! ### The monitor -/

theorem callPass {s : State} (h : P s) : P (callPass s) := hP.tracker _ (steadied_passDue _ s) h

theorem spinUpTest {s : State} (h : P s) : P (spinUpTest s) := by
  unfold Machine.spinUpTest
  split
  · rename_i hc
    simp only [Bool.and_eq_true] at hc
    exact hP.occur _ _ (by decide) (by decide) (hP.monitor _ ⟨rfl, rfl, rfl, rfl, rfl, fun hr => by simp [hr] at hc⟩ h)
  · exact h

theorem quietTest {s : State} (h : P s) : P (quietTest s) := by
  unfold Machine.quietTest
  split
  · exact h
  · exact hP.monitor _ ⟨rfl, rfl, rfl, rfl, rfl, fun _ => rfl⟩ h

theorem reportWork {s : State} (h : P s) : P (reportWork s) := by
  unfold Machine.reportWork
  split
  · exact h
  · dsimp only
    have h1 := hP.monitor
      { s.pm with
        foregroundWaiting := !s.pps.foreground.isEmpty
        platterWork := !s.pps.foreground.isEmpty || !s.pps.background.isEmpty || !s.pps.outstanding.isEmpty
        movesExist := !(allMoves s).isEmpty
        urgentMove := (allMoves s).any fun m => m.kind == .urgent } ⟨rfl, rfl, rfl, rfl, rfl, fun _ => rfl⟩ h
    split <;> split
    · exact hP.quietTest (hP.spinUpTest h1)
    · exact hP.quietTest h1
    · exact hP.spinUpTest h1
    · exact h1

/-! ### The ports -/

theorem placeBackground {s : State} (o : Order) (h : P s) : P (placeBackground o s) := by
  refine hP.reportWork ?_
  cases hp : o.port
  · exact hP.flash _ ⟨rfl, rfl, rfl, Nat.le_refl _⟩ h
  · exact hP.platter _ ⟨rfl, rfl, rfl, Nat.le_refl _⟩ h

theorem askTrim {s : State} (f : Nat) (h : P s) : P (askTrim f s) := by
  unfold Machine.askTrim
  split
  · exact hP.placeBackground _ h
  · split
    · exact h
    · exact hP.held _ h

theorem askLabelUpdate {s : State} (f : Nat) (g : Byte) (h : P s) : P (askLabelUpdate f g s) := by
  unfold Machine.askLabelUpdate
  split
  · exact hP.flash _ ⟨rfl, rfl, rfl, Nat.le_refl _⟩ h
  · split
    · exact hP.held _ h
    · split
      · exact hP.placeBackground _ h
      · exact hP.held _ h

theorem refillHeld {s : State} (h : P s) : P (refillHeld s) := by
  have h1 := hP.flash
    { s.fps with
      background := s.fps.background
        ++ (s.held.take (Config.backgroundCapacity - s.fps.background.length)).map heldOrder }
    ⟨rfl, rfl, rfl, Nat.le_refl _⟩ h
  exact hP.held (s.held.drop (Config.backgroundCapacity - s.fps.background.length)) h1

theorem placeLabelReads {s : State} (h : P s) : P (placeLabelReads s) := by
  unfold Machine.placeLabelReads
  split
  · rename_i p hp
    have h1 := hP.flash
      { s.fps with
        background := s.fps.background ++ (List.range (min (Config.backgroundCapacity - s.fps.background.length)
          (s.lu.frameCount - p.nextFrame))).map fun i => labelReadOrder (p.nextFrame + i) }
      ⟨rfl, rfl, rfl, Nat.le_refl _⟩ h
    refine hP.operation (.rebuilding _) ?_ h1
    constructor <;> simp [hp, opKind, classesOf]
  all_goals exact h

theorem placeCheckpoint {s : State} (h : P s) : P (placeCheckpoint s) := by
  unfold Machine.placeCheckpoint
  split
  · split
    · rename_i hw _
      exact hP.placeBackground _ (hP.operation _
        ⟨opKind_clearWaiting _, classesOf_clearWaiting _, fun hnone => by rw [hw] at hnone; cases hnone⟩ h)
    · exact h
  · exact hP.placeLabelReads h

theorem giveRoom {s : State} (h : P s) : P (giveRoom s) := hP.placeCheckpoint (hP.refillHeld h)

theorem takeBackChunks {s : State} (number : Byte) (h : P s) : P (takeBackChunks number s) := by
  have h1 := hP.flash { s.fps with background := s.fps.background.filter fun o => !isChunkOf number o }
    ⟨rfl, rfl, rfl, Nat.le_refl _⟩ h
  have h2 := hP.platter (s := { s with fps.background := s.fps.background.filter fun o => !isChunkOf number o })
    { s.pps with background := s.pps.background.filter fun o => !isChunkOf number o } ⟨rfl, rfl, rfl, Nat.le_refl _⟩ h1
  exact hP.reportWork (hP.giveRoom h2)

theorem dropFrameOrders {s : State} (f : Nat) (h : P s) : P (dropFrameOrders f s) := by
  have h1 := hP.flash
    { s.fps with
      foreground := s.fps.foreground.filter fun o => !leavesWith f o
      background := s.fps.background.filter fun o => !leavesWith f o }
    ⟨rfl, rfl, rfl, List.length_filter_le _ _⟩ h
  have h2 := hP.held (s := { s with
    fps.foreground := s.fps.foreground.filter fun o => !leavesWith f o
    fps.background := s.fps.background.filter fun o => !leavesWith f o }) (s.held.filter fun h => !heldUpdateOf f h) h1
  unfold Machine.dropFrameOrders
  refine hP.giveRoom ?_
  split
  · exact hP.callPass h2
  · exact h2

theorem dropForeground {s : State} (h : P s) : P (dropForeground s) := by
  have h1 := hP.flash { s.fps with foreground := [] } ⟨rfl, rfl, rfl, Nat.zero_le _⟩ h
  have h2 := hP.reportWork (hP.platter (s := { s with fps.foreground := [] }) { s.pps with foreground := [] }
    ⟨rfl, rfl, rfl, Nat.zero_le _⟩ h1)
  unfold Machine.dropForeground
  dsimp only
  split
  · exact hP.callPass h2
  · exact h2

/-! ### The pieces -/

theorem releaseWhere {s : State} (test : Fin 32 → Command → Piece → Bool) (h : P s) : P (releaseWhere test s) := by
  unfold Machine.releaseWhere
  generalize hf : (fun t c p => if test t c p then { p with state := .waiting (releasedReason s) } else p
    : Fin 32 → Command → Piece → Piece) = f
  split
  · have h1 : P { s with ct := (mapPieces f s).ct } := hP.tracker _ (steadied_mapPieces s fun t c p => by
      rw [← hf]
      dsimp only
      split
      · exact .inr rfl
      · exact .inl rfl) h
    have heq : mapPieces f s = { s with ct := (mapPieces f s).ct } := by with_reducible_and_instances
      unfold mapPieces
      rfl
    refine hP.callPass ?_
    rw [heq]
    exact h1
  · exact h

theorem releaseHolds {s : State} (h : P s) : P (releaseHolds s) := hP.releaseWhere _ h

theorem modifyPart {s : State} (tag : Fin 32) (segment i : Nat) (f : OrderPart → OrderPart) (h : P s) :
    P (modifyPart tag segment i f s) := by
  refine hP.tracker _ (steadied_modifyCommand _ tag s (fun _ => rfl) fun x q hq => ?_) h
  obtain ⟨p, hp, rfl⟩ := List.mem_map.1 hq
  refine ⟨p, hp, ?_⟩
  split <;> rfl

theorem placePart {s : State} (tag : Fin 32) (segment i : Nat) (room : s.pps.foreground.length < 64)
    (hport : ∀ q, (pieceOf tag segment s).bind (fun p => p.parts[i]?) = some q → q.port = .platter) (h : P s) :
    P (placePart tag segment i s) := by
  unfold Machine.placePart
  split
  · rename_i c q hc hq
    have h1 := hP.modifyPart tag segment i (fun q => { q with state := .placed }) h
    have hs : (commandOf tag (Machine.modifyPart tag segment i (fun q => { q with state := .placed }) s)).isSome = true := by
      rw [isSome_of_calm (modifyPart_calm tag segment i _ s), hc]
      rfl
    have h2 := hP.reissued tag (pieceOrder tag s.ct.slots[tag].useNo c segment i q (.platter segment)) hs room h1
    have hp : (pieceOrder tag s.ct.slots[tag].useNo c segment i q (.platter segment)).port = .platter := hport q hq
    unfold Machine.placeForeground
    rw [hp]
    exact hP.reportWork h2
  · exact h

theorem reissue {s : State} (tag : Fin 32) (segment i : Nat) (h : P s) : P (reissue tag segment i s) := by
  have h1 := hP.modifyPart tag segment i (fun q => ⟨.platter, .read, q.sectors, .unplaced⟩) h
  unfold Machine.reissue
  dsimp only
  split
  · rename_i hr
    simp only [Bool.and_eq_true] at hr
    have room : _ < 64 := of_decide_eq_true hr.1.2
    refine hP.placePart tag segment i room ?_ h1
    intro q hq
    rw [Machine.modifyPart, pieceOf_modifyPiece (by simp)] at hq
    cases hp : pieceOf tag segment s with
    | none => simp [hp] at hq
    | some p =>
      simp only [hp, Option.map_some, Option.bind_some, List.getElem?_modify_eq] at hq
      obtain ⟨_, _, rfl⟩ := Option.map_eq_some_iff.1 hq
      rfl
  · exact h1

theorem withdrawn {s : State} (o : Order) (h : P s) : P (withdrawn o s) := by
  unfold Machine.withdrawn
  split
  · split
    · exact hP.reissue _ _ _ h
    · exact h
  all_goals exact h

end Base

end Sys2Proof.Machine

/-! ## What every operation of the moves and of the map keeps -/

namespace Sys2Proof.Machine

namespace Moving

variable {P : State → Prop} (hP : Moving P)
include hP

theorem countPiece {s : State} (kind : CommandKind) (p : Piece) (h : P s) : P (countPiece kind p s) := by
  unfold Machine.countPiece
  split
  · exact h
  · split
    · split
      all_goals first | exact hP.bump _ (by decide) h | exact h
    · split
      · exact hP.bump _ (by decide) h
      · exact h
    · exact h
    · exact h

theorem keepSlots {s : State} (test : ChunkSlot → Bool) (h : P s) : P (keepSlots test s) := hP.moves _ h

theorem freeChunk {s : State} (c : Nat) (h : P s) : P (freeChunk c s) := hP.moves _ h

theorem setStage {s : State} (c : Nat) (st : ChunkStage) (h : P s) : P (setStage c st s) := hP.moves _ h

theorem modifyActive {s : State} (f : Move → Move) (h : P s) : P (modifyActive f s) := hP.moves _ h

theorem removeMove {s : State} (number : Byte) (h : P s) : P (removeMove number s) := hP.reportWork (hP.moves _ h)

theorem endByYield {s : State} (number : Byte) (h : P s) : P (endByYield number s) := by
  unfold Machine.endByYield
  refine hP.removeMove _ ?_
  split
  · exact hP.keepSlots _ h
  · exact h

theorem pullOrders {s : State} (number : Byte) (h : P s) : P (pullOrders number s) :=
  hP.keepSlots _ (hP.takeBackChunks _ h)

theorem markStop {s : State} (cause : StopCause) (h : P s) : P (markStop cause s) := by
  unfold Machine.markStop
  split
  · exact h
  · split
    · exact h
    · exact hP.pullOrders _ (hP.keepSlots _ (hP.modifyActive _ h))

theorem overtake {s : State} (number : Byte) (h : P s) : P (overtake number s) := hP.moves _ h

theorem endOfEntry {s : State} (marker : Option Byte) (h : P s) : P (endOfEntry marker s) := by
  unfold Machine.endOfEntry
  split
  · exact h
  · split
    · exact hP.removeMove _ h
    · split
      · dsimp only
        split
        · exact hP.removeMove _ (hP.markStop _ h)
        · exact hP.markStop _ h
      · exact h

theorem compareDirty {s : State} (h : P s) : P (compareDirty s) := by
  unfold Machine.compareDirty
  split
  · split
    · exact hP.occur _ _ (by decide) (by decide) (hP.moves _ h)
    · split
      · exact hP.moves _ h
      · exact h
  · exact h

theorem noteDrop {s : State} (h : P s) : P (noteDrop s) := hP.bump _ (by decide) (hP.moves _ h)

theorem addMove {s : State} (m : Move) (h : P s) : P (addMove m s) := hP.reportWork (hP.moves _ h)

theorem raiseMove {s : State} (m : Move) (kind : MoveKind) (h : P s) : P (raiseMove m kind s) :=
  hP.reportWork (hP.moves _ h)

theorem trimReport {s : State} (segment : Nat) (h : P s) : P (trimReport segment s) := by
  unfold Machine.trimReport
  split
  · split
    · exact hP.removeMove _ h
    · exact h
  · exact h

theorem holdSlot {s : State} (slot : Nat) (k : ChunkSlot) (h : P s) : P (holdSlot slot k s) := by
  unfold Machine.holdSlot
  split
  · exact hP.moves _ h
  · exact hP.moves _ h

theorem startChunk {s : State} (h : P s) : P (startChunk s) := by
  unfold Machine.startChunk
  split
  · exact h
  · split
    · split
      · exact h
      · split
        · exact hP.holdSlot _ _ h
        · split
          · exact hP.placeBackground _ (hP.holdSlot _ _ h)
          · exact h
    · exact h

theorem placeWrite {s : State} (h : P s) : P (placeWrite s) := by
  unfold Machine.placeWrite
  split
  · split
    · exact hP.placeBackground _ (hP.setStage _ _ h)
    · exact h
  · exact h

theorem pumpChunks {s : State} (h : P s) : P (pumpChunks s) := by
  unfold Machine.pumpChunks
  split
  · exact h
  · exact hP.placeWrite (hP.placeWrite (hP.startChunk (hP.startChunk (hP.placeWrite (hP.placeWrite h)))))

theorem pauseTest {s : State} (h : P s) : P (pauseTest s) := by
  unfold Machine.pauseTest
  split
  · exact hP.modifyActive _ h
  · exact h

theorem releaseYields {s : State} (h : P s) : P (releaseYields s) := hP.releaseWhere _ h

theorem yieldRequest {s : State} (segment : Nat) (h : P s) : P (yieldRequest segment s) := by
  unfold Machine.yieldRequest
  split
  · exact hP.modifyActive _ h
  · exact h

theorem withdrawYields {s : State} (h : P s) : P (withdrawYields s) := hP.moves _ h

theorem unpause {s : State} (h : P s) : P (unpause s) := hP.modifyActive _ h

theorem chunkDone {s : State} (c : Nat) (h : P s) : P (chunkDone c s) := hP.freeChunk _ (hP.modifyActive _ h)

theorem unqueue {s : State} (m : Move) (h : P s) : P (unqueue m s) := hP.moves _ h

theorem resume {s : State} (m : Move) (h : P s) : P (resume m s) := hP.moves _ h

end Moving

namespace Core

variable {P : State → Prop} (hP : Core P)
include hP

/-! ### The map -/

theorem modifyEntry {s : State} (segment : Nat) (f : Entry → Entry) (h : P s) : P (modifyEntry segment f s) :=
  hP.touch _ (hP.map _ h)

theorem toReclaimTail {s : State} (segment : Nat) (h : P s) : P (toReclaimTail segment s) := hP.touch _ (hP.map _ h)

theorem offLists {s : State} (segment : Nat) (h : P s) : P (offLists segment s) := hP.touch _ (hP.map _ h)

theorem setDirtyCount {s : State} (n : Nat) (h : P s) : P (setDirtyCount n s) := hP.compareDirty (hP.map _ h)

theorem withdrawnAll {s : State} (os : List Order) (h : P s) : P (os.foldl (fun t o => Machine.withdrawn o t) s) := by
  induction os generalizing s with
  | nil => exact h
  | cons o os ih => exact ih (hP.withdrawn o h)

theorem frameLeavesBound {s : State} (f : Nat) (h : P s) : P (frameLeavesBound f s) := by
  unfold Machine.frameLeavesBound
  dsimp only
  have h1 := hP.withdrawnAll
    ((Machine.touch 0 { s with sm.frames := withFrameState f .trimming s.sm.frames }).fps.foreground.filter (leavesWith f))
    (hP.dropFrameOrders f (hP.touch 0 (hP.map { s.sm with frames := withFrameState f .trimming s.sm.frames } h)))
  split
  · exact hP.askTrim _ h1
  · exact h1

theorem removeEntry {s : State} (segment : Nat) (h : P s) : P (removeEntry segment s) := by
  unfold Machine.removeEntry
  split
  · exact h
  · rename_i e _
    have h1 := hP.frameLeavesBound e.frame (hP.endOfEntry e.marker (hP.offLists segment
      (hP.map { s.sm with entries := s.sm.entries.filter fun x => x.segment != segment } h)))
    dsimp only
    split
    · exact hP.setDirtyCount _ h1
    · exact h1

theorem emptying {s : State} (segment : Nat) (h : P s) : P (emptying segment s) := by
  unfold Machine.emptying
  split
  · exact h
  · rename_i e _
    have h1 := hP.endOfEntry e.marker
      (hP.offLists segment (hP.modifyEntry segment (fun x => { x with state := .fresh, marker := none }) h))
    split
    · exact h
    · exact h
    all_goals
      split
      · exact h
      · split
        · exact hP.removeEntry _ h
        · dsimp only
          split
          · exact hP.setDirtyCount _ h1
          · exact h1

theorem dropIfUnused {s : State} (segment : Nat) (h : P s) : P (dropIfUnused segment s) := by
  unfold Machine.dropIfUnused
  split
  · split
    · exact hP.removeEntry _ h
    · exact h
  · exact h

theorem createEntry {s : State} (segment : Nat) (st : EntryState) (absorbs : Nat) (marker : Option Byte) (h : P s) :
    P (createEntry segment st absorbs marker s).2 := by
  unfold Machine.createEntry
  split
  · exact h
  · exact hP.touch _ (hP.map _ (hP.takeCandidate _ h))

theorem convertInbound {s : State} (segment : Nat) (h : P s) : P (convertInbound segment s) := by
  unfold Machine.convertInbound
  split
  · exact h
  · rename_i e _
    have h1 : P (match e.marker with
        | some n => Machine.endByYield n s
        | none => s) := by
      split
      · exact hP.endByYield _ h
      · exact h
    dsimp only
    split
    · exact hP.toReclaimTail _ (hP.modifyEntry _ _ h1)
    · exact hP.modifyEntry _ _ h1

theorem absorbRequest {s : State} (segment : Nat) (h : P s) : P (absorbRequest segment s).2 := by
  unfold Machine.absorbRequest
  split
  · exact hP.createEntry _ _ _ _ h
  · refine hP.modifyEntry _ _ ?_
    split
    · exact hP.convertInbound _ h
    · exact h

theorem absorbOk {s : State} (segment f : Nat) (written : SectorSet) (h : P s) : P (absorbOk segment f written s) := by
  unfold Machine.absorbOk
  split
  · exact h
  · rename_i e _
    have h1 := hP.modifyEntry segment (fun x => { x with
        validity := validityOf (validSet x ||| written)
        generation := x.generation + 1
        absorbs := x.absorbs - 1
        flushFailures := 0
        state := if x.state = .fresh || x.state = .clean then .dirty else x.state }) h
    dsimp only
    split
    · exact hP.setDirtyCount _ (hP.map _ (hP.offLists segment h1))
    · exact hP.setDirtyCount _ (hP.map _ (hP.offLists segment h1))
    · split
      · exact hP.overtake _ h1
      · exact h1
    · exact h1
    · exact h1

theorem absorbError {s : State} (segment f : Nat) (written : SectorSet) (h : P s) : P (absorbError segment f written s) := by
  unfold Machine.absorbError
  split
  · exact h
  · refine hP.dropIfUnused _ (hP.emptying _ ?_)
    split
    · exact hP.overtake _ (hP.modifyEntry _ _ h)
    · exact hP.modifyEntry _ _ h

theorem absorbWithdrawn {s : State} (segment f : Nat) (h : P s) : P (absorbWithdrawn segment f s) := by
  unfold Machine.absorbWithdrawn
  split
  · exact h
  · exact hP.dropIfUnused _ (hP.modifyEntry _ _ h)

theorem readError {s : State} (segment f : Nat) (read : SectorSet) (h : P s) : P (readError segment f read s).2 := by
  unfold Machine.readError
  split
  · exact h
  · split
    · exact hP.emptying _ (hP.modifyEntry _ _ h)
    · exact hP.emptying _ (hP.modifyEntry _ _ h)
    all_goals exact h

theorem trimEntry {s : State} (segment : Nat) (trimmed : SectorSet) (h : P s) : P (trimEntry segment trimmed s) := by
  unfold Machine.trimEntry
  split
  · exact h
  · split
    · exact h
    · exact h
    all_goals
      split
      · exact hP.removeEntry _ h
      · exact hP.emptying _ (hP.modifyEntry _ _ h)

theorem trimEffect {s : State} (segment : Nat) (trimmed : SectorSet) (h : P s) : P (trimEffect segment trimmed s) := by
  unfold Machine.trimEffect
  split
  · exact h
  · split
    · exact hP.trimEntry _ _ (hP.dropIfUnused _ (hP.convertInbound _ h))
    · exact hP.trimEntry _ _ h

theorem promotionWrite {s : State} (segment : Nat) (number : Byte) (c : Nat) (h : P s) :
    P (promotionWrite segment number c s) := by
  unfold Machine.promotionWrite
  split
  · exact h
  · exact hP.modifyEntry _ _ h

theorem promotionFinish {s : State} (segment : Nat) (number : Byte) (h : P s) : P (promotionFinish segment number s) := by
  unfold Machine.promotionFinish
  split
  · exact h
  · split
    · exact h
    · split
      · exact hP.removeEntry _ h
      · exact hP.toReclaimTail _ (hP.modifyEntry _ _ h)

theorem promotionAbandoned {s : State} (segment : Nat) (number : Byte) (h : P s) :
    P (promotionAbandoned segment number s) := by
  unfold Machine.promotionAbandoned
  split
  · exact h
  · split
    · exact hP.removeEntry _ h
    · exact h

theorem flushRequest {s : State} (segment : Nat) (number : Byte) (h : P s) : P (flushRequest segment number s).2 := by
  unfold Machine.flushRequest
  split
  · split
    · exact hP.modifyEntry _ _ h
    · exact h
  · exact h

theorem flushStart {s : State} (segment : Nat) (number : Byte) (h : P s) : P (flushStart segment number s).2 := by
  unfold Machine.flushStart
  split
  · split
    · exact hP.offLists _ (hP.modifyEntry _ _ h)
    · exact h
  · exact h

theorem flushDropped {s : State} (segment : Nat) (number : Byte) (h : P s) : P (flushDropped segment number s) := by
  unfold Machine.flushDropped
  split
  · exact hP.modifyEntry _ _ h
  · exact h

theorem flushReturns {s : State} (segment failures : Nat) (h : P s) : P (flushReturns segment failures s) :=
  hP.map _ (hP.modifyEntry _ _ h)

theorem flushFinish {s : State} (segment : Nat) (number : Byte) (captured : Option Byte) (overtaken : Bool) (h : P s) :
    P (flushFinish segment number captured overtaken s).2 := by
  unfold Machine.flushFinish
  split
  · split
    · exact h
    · split
      · exact hP.askLabelUpdate _ _ (hP.setDirtyCount _ (hP.toReclaimTail _ (hP.modifyEntry _ _ h)))
      · exact hP.flushReturns _ _ h
  · exact h

theorem flushAbandoned {s : State} (segment : Nat) (number : Byte) (cause : StopCause) (h : P s) :
    P (flushAbandoned segment number cause s) := by
  unfold Machine.flushAbandoned
  split
  · split
    · exact hP.flushReturns _ _ h
    · exact h
  · exact h

theorem frameDispatched {s : State} (f : Nat) (h : P s) : P (frameDispatched f s) := hP.map _ h

theorem frameReturned {s : State} (f : Nat) (ofTrim : Bool) (h : P s) : P (frameReturned f ofTrim s) := by
  unfold Machine.frameReturned
  dsimp only
  split
  · exact hP.askTrim _ (hP.map _ h)
  · exact hP.map _ h

theorem trimResult {s : State} (f : Nat) (ok : Bool) (h : P s) : P (trimResult f ok s) := by
  unfold Machine.trimResult
  split
  · exact h
  · split
    · exact hP.callPass (hP.touch _ (hP.map _ h))
    · exact hP.callPass (hP.bump _ (by decide) (hP.touch _ (hP.map _ h)))

theorem evict {s : State} (segment : Nat) (h : P s) : P (evict segment s).2 := by
  unfold Machine.evict
  split
  · split
    · exact hP.bump _ (by decide) (hP.removeEntry _ h)
    · exact h
  · exact h

theorem takeWriteSeq {s : State} (h : P s) : P (takeWriteSeq s) := hP.touch _ (hP.map _ h)

end Core

/-- The predicates kept by the operations of the map that the Migration Engine calls for. -/
structure Mapped (P : State → Prop) : Prop extends Moving P where
  createInbound : ∀ {s} segment marker, lookup segment s = none → P s → P (createEntry segment .inbound 0 marker s).2
  promotionWrite : ∀ {s} segment number c, P s → P (promotionWrite segment number c s)
  promotionFinish : ∀ {s} segment number, P s → P (promotionFinish segment number s)
  promotionAbandoned : ∀ {s} segment number, P s → P (promotionAbandoned segment number s)
  flushRequest : ∀ {s} segment number, P s → P (flushRequest segment number s).2
  flushStart : ∀ {s} segment number, P s → P (flushStart segment number s).2
  flushDropped : ∀ {s} segment number, P s → P (flushDropped segment number s)
  flushFinish : ∀ {s} segment number captured overtaken, P s → P (flushFinish segment number captured overtaken s).2
  flushAbandoned : ∀ {s} segment number cause, P s → P (flushAbandoned segment number cause s)

theorem Core.mapped {P : State → Prop} (hP : Core P) : Mapped P where
  toMoving := hP.toMoving
  createInbound := fun segment marker _ h => hP.createEntry segment _ _ marker h
  promotionWrite := hP.promotionWrite
  promotionFinish := hP.promotionFinish
  promotionAbandoned := hP.promotionAbandoned
  flushRequest := hP.flushRequest
  flushStart := hP.flushStart
  flushDropped := hP.flushDropped
  flushFinish := hP.flushFinish
  flushAbandoned := hP.flushAbandoned

namespace Mapped

variable {P : State → Prop} (hP : Mapped P)
include hP

theorem dropPending {s : State} (m : Move) (h : P s) : P (dropPending m s) := by
  unfold Machine.dropPending
  dsimp only
  split
  · exact hP.flushDropped _ _ (hP.removeMove _ h)
  · exact hP.removeMove _ h

theorem makeRoom {s : State} (level : Nat) (h : P s) : P (makeRoom level s).2 := by
  unfold Machine.makeRoom
  split
  · exact h
  · split
    · split
      · exact hP.noteDrop (hP.dropPending _ h)
      · exact h
    · exact hP.noteDrop h

theorem makeMove {s : State} (segment : Nat) (kind : MoveKind) (h : P s) : P (makeMove segment kind s).2 := by
  have h1 := hP.makeRoom (levelOf kind) h
  unfold Machine.makeMove
  split
  · rename_i s1 hs
    rw [hs] at h1
    exact h1
  · rename_i s1 hs
    rw [hs] at h1
    dsimp only
    split
    · have h2 := hP.flushRequest segment (nextNumber s1) h1
      split
      · rename_i s2 hf
        rw [hf] at h2
        exact hP.addMove _ h2
      · rename_i s2 hf
        rw [hf] at h2
        exact h2
    · exact hP.addMove _ h1

theorem requestMove {s : State} (segment : Nat) (kind : MoveKind) (h : P s) : P (requestMove segment kind s).2 := by
  unfold Machine.requestMove
  split
  · exact h
  · split
    · exact hP.makeMove _ _ h
    · split
      · exact h
      · split
        · split
          · exact hP.raiseMove _ _ h
          · exact h
        · split
          · exact hP.makeMove _ _ (hP.removeMove _ h)
          · exact h

theorem reportAbandoned {s : State} (m : Move) (cause : StopCause) (h : P s) : P (reportAbandoned m cause s) := by
  unfold Machine.reportAbandoned
  split
  · exact h
  · split
    · exact hP.bump _ (by decide) (hP.promotionAbandoned _ _ h)
    · split
      · dsimp only
        split
        · exact hP.bump _ (by decide) (hP.flushAbandoned _ _ _ h)
        · exact hP.flushAbandoned _ _ _ h
      · exact hP.flushDropped _ _ h

theorem abandon {s : State} (m : Move) (cause : StopCause) (h : P s) : P (abandon m cause s) :=
  hP.reportAbandoned _ _ (hP.removeMove _ h)

theorem endIfDrained {s : State} (h : P s) : P (endIfDrained s) := by
  unfold Machine.endIfDrained
  split
  · split
    · split
      · exact h
      · exact hP.abandon _ _ h
    · exact h
  · exact h

theorem stopActive {s : State} (cause : StopCause) (h : P s) : P (stopActive cause s) := hP.endIfDrained (hP.markStop _ h)

theorem stopPending {s : State} (ms : List Move) (h : P s) : P (stopPending ms s) := by
  induction ms generalizing s with
  | nil => exact h
  | cons m ms ih => exact ih (hP.dropPending m h)

theorem stopStacked {s : State} (cause : StopCause) (ms : List Move) (h : P s) : P (stopStacked cause ms s) := by
  induction ms generalizing s with
  | nil => exact h
  | cons m ms ih => exact ih (hP.abandon m cause h)

theorem stopAll {s : State} (cause : StopCause) (h : P s) : P (stopAll cause s) :=
  hP.stopActive _ (hP.stopStacked _ _ (hP.stopPending _ h))

theorem reportFinished {s : State} (m : Move) (h : P s) : P (reportFinished m s) := by
  unfold Machine.reportFinished
  split
  · have h1 := hP.flushFinish m.segment m.number m.captured m.overtaken h
    split
    · rename_i s1 hf
      rw [hf] at h1
      exact hP.bump _ (by decide) h1
    · rename_i s1 hf
      rw [hf] at h1
      exact hP.bump _ (by decide) h1
    · rename_i s1 hf
      rw [hf] at h1
      exact h1
  · exact hP.bump _ (by decide) (hP.promotionFinish _ _ h)

theorem finishTest {s : State} (h : P s) : P (finishTest s) := by
  unfold Machine.finishTest
  split
  · split
    · split
      · exact hP.removeMove _ (hP.reportFinished _ h)
      · exact h
    · exact h
  · exact h

theorem activateFlush {s : State} (m : Move) (e : Entry) (h : P s) : P (activateFlush m e s) :=
  hP.moves _ (hP.unqueue m h)

theorem activatePromotion {s : State} (m : Move) (hl : lookup m.segment s = none) (h : P s) :
    P (activatePromotion m s) := by
  have h1 := hP.createInbound (s := Machine.unqueue m s) m.segment (some m.number) hl (hP.unqueue m h)
  unfold Machine.activatePromotion
  split
  · rename_i f s1 hc
    rw [hc] at h1
    exact hP.moves _ h1
  · exact h

theorem arbiter {s : State} (fuel : Nat) (h : P s) : P (arbiter fuel s) := by
  induction fuel generalizing s with
  | zero => exact h
  | succ fuel ih =>
    unfold Machine.arbiter
    split
    · exact h
    · split
      · exact h
      · exact hP.resume _ h
      · split
        · split
          · exact hP.resume _ h
          · exact h
        · split
          · split
            · exact hP.activateFlush _ _ h
            · exact ih (hP.removeMove _ h)
          · rename_i hl
            split
            · exact ih (hP.removeMove _ h)
            · exact hP.activatePromotion _ hl h

theorem spillBottom {s : State} (h : P s) : P (spillBottom s) := by
  unfold Machine.spillBottom
  split
  · split
    · exact hP.abandon _ _ (hP.bump _ (by decide) (hP.occur _ _ (by decide) (by decide) (hP.moves _ h)))
    · exact h
  · exact h

theorem suspend {s : State} (m : Move) (h : P s) : P (suspend m s) := hP.spillBottom (hP.moves _ h)

theorem preemptTest {s : State} (h : P s) : P (preemptTest s) := by
  unfold Machine.preemptTest
  split
  · exact h
  · split
    · split
      · exact hP.modifyActive _ h
      · exact hP.suspend _ h
    · split
      · exact hP.modifyActive _ h
      · exact h

theorem urgentCheck {s : State} (h : P s) : P (urgentCheck s) := by
  unfold Machine.urgentCheck
  split
  · split
    · exact hP.requestMove _ _ h
    · exact h
  · exact h

theorem flushCheck {s : State} (h : P s) : P (flushCheck s) := by
  unfold Machine.flushCheck
  split
  · split
    · exact hP.requestMove _ _ h
    · exact h
  · exact h

theorem engineChecks {s : State} (h : P s) : P (engineChecks s) := by
  have h1 := hP.flushCheck (hP.urgentCheck h)
  unfold Machine.engineChecks
  split
  · dsimp only
    split
    · exact h1
    · exact hP.arbiter _ (hP.preemptTest h1)
  · exact h

theorem engineEvent {s : State} (h : P s) : P (engineEvent s) := by
  unfold Machine.engineEvent
  split
  · exact h
  · exact hP.releaseYields (hP.pauseTest (hP.pumpChunks (hP.engineChecks h)))

theorem chunkReadOk {s : State} (m : Move) (c : Nat) (h : P s) : P (chunkReadOk m c s) := by
  unfold Machine.chunkReadOk
  split
  · exact hP.endIfDrained (hP.freeChunk _ h)
  · split
    · exact hP.freeChunk _ h
    · split
      · exact hP.chunkDone _ h
      · exact hP.setStage _ _ h

theorem chunkWriteOk {s : State} (m : Move) (c : Nat) (h : P s) : P (chunkWriteOk m c s) := by
  unfold Machine.chunkWriteOk
  refine hP.endIfDrained (hP.chunkDone _ ?_)
  split
  · exact h
  · exact hP.promotionWrite _ _ _ h

theorem chunkResult {s : State} (number : Byte) (c : Nat) (op : Operation) (ok : Bool) (h : P s) :
    P (chunkResult number c op ok s) := by
  unfold Machine.chunkResult
  split
  · exact h
  · split
    · exact h
    · split
      · exact hP.stopActive _ (hP.freeChunk _ h)
      · refine hP.finishTest ?_
        split
        · exact hP.chunkReadOk _ _ h
        · exact hP.chunkWriteOk _ _ h

theorem flushStarts {s : State} (number : Byte) (h : P s) : P (flushStarts number s) := by
  unfold Machine.flushStarts
  split
  · exact h
  · rename_i m _
    split
    · have h1 := hP.flushStart m.segment m.number h
      split
      · rename_i g v s1 hf
        rw [hf] at h1
        exact hP.modifyActive _ h1
      · rename_i s1 hf
        rw [hf] at h1
        exact h1
    · exact h

end Mapped

end Sys2Proof.Machine

/-! ## What every command keeps

`Whole` adds the operations that commands, dispatches, results and routing passes call for; the commands that load, reset
or configure components are `Loading`'s. -/

namespace Sys2Proof.Machine

/-- The tables that few operations touch: counters, notices, candidates, streams, parameters, the map and the classes of a
Rebuild. -/
structure TablePart where
  stats : Vector Nat 32
  notices : List Notice
  deferred : List NoticeKind
  candidates : List Candidate
  streams : Vector StreamRec 8
  params : Params
  sm : SegmentMap
  frameCount : Nat
  table : List Claim
  classes : Option (List Nat × List Nat)

/-- The table part of a state. -/
def tablePart (s : State) : TablePart :=
  ⟨s.stats, s.lu.notices, s.lu.deferred, s.hu.candidates, s.streams, s.params, s.sm, s.lu.frameCount, s.cu.rebuildTable,
    classesOf s.cu.operation⟩

theorem freeAllSlots_table (s : State) : tablePart (freeAllSlots s) = tablePart s := by simp only [tablePart, freeAllSlots]

/-- What the results of the Platter Port, Report Spindle and routing passes alone change. -/
def watchPart (s : State) :=
  (s.pm.watch, s.pm.excursion, s.pm.degraded, s.lu.occurrences, s.ct.passDue)

/-- The predicates kept by the operations that results call for. -/
structure Resulting (P : State → Prop) : Prop extends Mapped P where
  steady : ∀ {s t}, P s → tablePart t = tablePart s → watchPart t = watchPart s → P t
  settle : ∀ {s} o, classesOf o = none → P s → P { s with cu.operation := o }
  absorbOk : ∀ {s} segment f v, P s → P (absorbOk segment f v s)
  absorbError : ∀ {s} segment f v, P s → P (absorbError segment f v s)
  readError : ∀ {s} segment f v, P s → P (readError segment f v s).2
  frameReturned : ∀ {s} f b, P s → P (frameReturned f b s)
  trimResult : ∀ {s} f ok, P s → P (trimResult f ok s)
  labelResult : ∀ {s} f ok l, P s → P (labelResult f ok l s)

/-- The predicates kept by the operations of the commands that load, reset and configure nothing. -/
structure Whole (P : State → Prop) : Prop extends Resulting P where
  plain : ∀ {s t}, P s → tablePart t = tablePart s → P t
  degraded : ∀ {s}, P s → P (Machine.bump .degradedEntries s)
  platterNotice : ∀ {s} k a, P s → P (Machine.occur k a s)
  consult : ∀ {s} start length, P s → P (consultStreams start length s).2
  clearStreams : ∀ {s}, P s → P (clearStreams s)
  sendNotice : ∀ {s} n rest, s.lu.notices = n :: rest → P s → P (sendNotice n rest s)
  heatUpdate : ∀ {s} segment cmd boost, P s → P (heatUpdate segment cmd boost s).2
  readHit : ∀ {s} segment e, lookup segment s = some e → P s → P (readHit e s)
  absorbRequest : ∀ {s} segment, P s → P (absorbRequest segment s).2
  absorbWithdrawn : ∀ {s} segment f, P s → P (absorbWithdrawn segment f s)
  trimEffect : ∀ {s} segment v, P s → P (trimEffect segment v s)
  evict : ∀ {s} segment, P s → P (evict segment s).2
  frameDispatched : ∀ {s} f, P s → P (frameDispatched f s)
  takeWriteSeq : ∀ {s}, P s → P (takeWriteSeq s)
  startLabelReads : ∀ {s}, s.cu.operation = .rebuildDraining → P s → P (startLabelReads s)

namespace Resulting

variable {P : State → Prop} (hP : Resulting P)
include hP

/-! ### The pieces -/

theorem modifyCommand {s : State} (tag : Fin 32) (f : Command → Command) (h : P s) : P (modifyCommand tag f s) :=
  hP.steady h (by rfl) (by rfl)

theorem modifyPiece {s : State} (tag : Fin 32) (segment : Nat) (f : Piece → Piece) (h : P s) :
    P (modifyPiece tag segment f s) := hP.modifyCommand _ _ h

theorem mapPieces {s : State} (f : Fin 32 → Command → Piece → Piece) (h : P s) : P (mapPieces f s) :=
  hP.steady h (by simp only [tablePart, Machine.mapPieces]) (by simp only [watchPart, Machine.mapPieces])

theorem splitCommand {s : State} (tag : Fin 32) (h : P s) : P (splitCommand tag s) := by
  unfold Machine.splitCommand
  split
  · exact h
  · split
    · exact hP.modifyCommand _ _ h
    · exact hP.callPass (hP.modifyCommand _ _ h)

theorem holdForSave {s : State} (h : P s) : P (holdForSave s) := hP.mapPieces _ h

theorem saveToRoute {s : State} (h : P s) : P (saveToRoute s) := hP.mapPieces _ h

/-! ### The end of pieces and commands -/

theorem flushCacheSweep {s : State} (ts : List (Fin 32)) (seen : Bool) (h : P s) : P (flushCacheSweep ts seen s) := by
  induction ts generalizing seen s with
  | nil => exact h
  | cons t ts ih =>
    unfold Machine.flushCacheSweep
    split
    · exact ih _ h
    · split
      · exact ih _ (hP.steady h (by rfl) (by rfl))
      · exact ih _ h

theorem testFlushCaches {s : State} (h : P s) : P (testFlushCaches s) := hP.flushCacheSweep _ _ h

theorem finishCommand {s : State} (tag : Fin 32) (h : P s) : P (finishCommand tag s) := by
  unfold Machine.finishCommand
  split
  · exact h
  · rename_i c _
    split
    · have h1 : P (complete (.command tag (commandStatus c) (servedFrom c)) (freeSlot tag s)) := hP.steady h (by rfl) (by rfl)
      refine hP.releaseHolds (hP.testFlushCaches ?_)
      split
      · exact hP.bump _ (by decide) h1
      · exact h1
    · exact h

theorem endPiece {s : State} (tag : Fin 32) (segment : Nat) (h : P s) : P (endPiece tag segment s) := by
  unfold Machine.endPiece
  split
  · split
    · exact hP.finishCommand _ (hP.releaseHolds (hP.countPiece _ _ (hP.modifyPiece _ _ _ h)))
    · exact h
  · exact h

theorem partOk {s : State} (tag : Fin 32) (segment i : Nat) (port : Port) (h : P s) : P (partOk tag segment i port s) :=
  hP.endPiece _ _ (hP.modifyPiece _ _ _ h)

theorem partError {s : State} (tag : Fin 32) (segment i : Nat) (h : P s) : P (partError tag segment i s) :=
  hP.endPiece _ _ (hP.modifyPiece _ _ _ h)

theorem partResult {s : State} (tag : Fin 32) (useNo : BitVec 16) (segment i : Nat) (port : Port) (ok : Bool) (h : P s) :
    P (partResult tag useNo segment i port ok s) := by
  unfold Machine.partResult
  split
  · split
    · exact hP.partOk _ _ _ _ h
    · exact hP.partError _ _ _ h
  · exact h

theorem openHeld {s : State} (ts : List (Fin 32)) (h : P s) : P (openHeld ts s) := by
  induction ts generalizing s with
  | nil => exact h
  | cons t ts ih =>
    unfold Machine.openHeld
    refine ih ?_
    split
    · exact hP.splitCommand _ h
    · exact h

theorem leaveSaving {s : State} (h : P s) : P (leaveSaving s) :=
  hP.callPass (hP.saveToRoute (hP.testFlushCaches (hP.openHeld _ h)))

/-! ### Results -/

theorem readFailed {s : State} (tag : Fin 32) (useNo : BitVec 16) (segment i f : Nat) (v : SectorSet) (h : P s) :
    P (readFailed tag useNo segment i f v s) := by
  have h1 := hP.readError segment f v h
  unfold Machine.readFailed
  split
  · rename_i s1 hr
    rw [hr] at h1
    have h2 := hP.bump .mediaErrors (by decide) (hP.occur .mediaFault segment (by decide) (by decide) h1)
    dsimp only
    split
    · exact hP.reissue _ _ _ h2
    · exact h2
  · rename_i s1 hr
    rw [hr] at h1
    exact hP.partResult _ _ _ _ _ _ (hP.bump _ (by decide) h1)

theorem pieceResult {s : State} (tag : Fin 32) (useNo : BitVec 16) (segment i : Nat) (d : Dispatched) (ok : Bool) (h : P s) :
    P (pieceResult tag useNo segment i d ok s) := by
  unfold Machine.pieceResult
  split
  · unfold Machine.flashPieceResult
    dsimp only
    split
    · split
      · exact hP.partResult _ _ _ _ _ _ (hP.absorbOk _ _ _ h)
      · exact hP.partResult _ _ _ _ _ _ (hP.bump _ (by decide) (hP.absorbError _ _ _ h))
    · split
      · exact hP.partResult _ _ _ _ _ _ h
      · exact hP.readFailed _ _ _ _ _ _ h
  · refine hP.partResult _ _ _ _ _ _ ?_
    split
    · exact h
    · exact hP.bump _ (by decide) h

/-! ### Save -/

theorem completeLong {s : State} (kind : TxnKind) (status : TxnStatus) (results : TxnResults) (h : P s) :
    P (completeLong kind status results s) := hP.steady h (by rfl) (by rfl)

theorem placeRequest {s : State} (op : Operation) (first blocks : Nat) (install : Order → CuOperation)
    (hi : ∀ o, classesOf (install o) = none) (h : P s) : P (placeRequest op first blocks install s) :=
  hP.placeCheckpoint (hP.settle (s := { s with cu.requestNo := s.cu.requestNo + 1 }) _ (hi _) (hP.steady h (by rfl) (by rfl)))

theorem endSave {s : State} (status : TxnStatus) (results : TxnResults) (h : P s) : P (endSave status results s) := by
  have h1 := hP.completeLong .save status results (hP.settle .idle rfl h)
  unfold Machine.endSave Machine.resumeAfterSave
  split
  · exact hP.engineEvent (hP.leaveSaving (hP.unpause (hP.steady h1 (by rfl) (by rfl))))
  · exact h1

theorem saveNext {s : State} (p : SaveProgress) (h : P s) : P (saveNext p s) := by
  unfold Machine.saveNext Machine.writeRecord Machine.writeHeader
  split
  · exact hP.placeRequest _ _ _ _ (fun _ => by rfl) (hP.steady h (by rfl) (by rfl))
  · exact hP.placeRequest _ _ _ _ (fun _ => by rfl) (hP.steady h (by rfl) (by rfl))

theorem planSave {s : State} (requested : CompSet) (full : Bool) (h : P s) : P (planSave requested full s) := by
  unfold Machine.planSave
  dsimp only
  split
  · exact hP.endSave _ _ h
  · split
    · exact hP.endSave _ _ h
    · exact hP.saveNext _ h

theorem saveResult {s : State} (p : SaveProgress) (ok : Bool) (h : P s) : P (saveResult p ok s) := by
  unfold Machine.saveResult Machine.saveFails Machine.saveSucceeds
  split
  · split
    · exact hP.endSave _ _ (hP.steady h (by rfl) (by rfl))
    · exact hP.endSave _ _ (hP.steady h (by rfl) (by rfl))
  · split
    · exact hP.saveNext _ h
    · exact hP.endSave _ _ (hP.steady h (by rfl) (by rfl))

theorem setSched {s : State} (p : Port) (q : Scheduler) (h : P s) : P (setSched p q s) := by
  cases p
  · exact hP.steady h (by rfl) (by rfl)
  · exact hP.steady h (by rfl) (by rfl)

end Resulting

namespace Whole

variable {P : State → Prop} (hP : Whole P)
include hP

/-! ### Monitor, streams and heat -/

theorem degradeTest {s : State} (h : P s) : P (degradeTest s) := by
  unfold Machine.degradeTest
  split
  · exact hP.callPass (hP.degraded (hP.platterNotice _ _ (hP.plain h (by rfl))))
  · split
    · exact hP.callPass (hP.platterNotice _ _ (hP.plain h (by rfl)))
    · exact h

theorem watchResult {s : State} (id : Byte) (service : Nat) (h : P s) : P (watchResult id service s) := by
  unfold Machine.watchResult
  dsimp only
  split
  · exact hP.plain h (by rfl)
  · exact hP.degradeTest (hP.plain h (by rfl))

theorem streamEvent {s : State} (e : ClearEvent) (h : P s) : P (streamEvent e s) := by
  unfold Machine.streamEvent
  split
  · exact hP.clearStreams h
  · exact h

theorem interruptWatch {s : State} (old new : PlatterState) (h : P s) : P (interruptWatch old new s) := by
  unfold Machine.interruptWatch
  split
  · exact hP.plain h (by rfl)
  · exact h

theorem stoppedPeriod {s : State} (old new : PlatterState) (h : P s) : P (stoppedPeriod old new s) := by
  unfold Machine.stoppedPeriod
  split
  · split
    · exact h
    · exact hP.spinUpTest h
  · exact hP.plain h (by rfl)

theorem degradeClear {s : State} (old new : PlatterState) (h : P s) : P (degradeClear old new s) := by
  unfold Machine.degradeClear
  split
  · dsimp only
    split
    · exact hP.callPass (hP.platterNotice _ _ (hP.plain h (by rfl)))
    · exact hP.plain h (by rfl)
  · exact h

theorem setPlatter {s : State} (new : PlatterState) (h : P s) : P (setPlatter new s) := by
  unfold Machine.setPlatter
  split
  · exact h
  · dsimp only
    refine hP.callPass ?_
    split
    · exact hP.streamEvent _ (hP.quietTest (hP.degradeClear _ _ (hP.stoppedPeriod _ _ (hP.interruptWatch _ _ (hP.plain h (by rfl))))))
    · exact hP.quietTest (hP.degradeClear _ _ (hP.stoppedPeriod _ _ (hP.interruptWatch _ _ (hP.plain h (by rfl)))))

theorem advanceEpoch {s : State} (h : P s) : P (advanceEpoch s) := by
  unfold Machine.advanceEpoch
  split
  · exact hP.streamEvent _ (hP.plain h (by rfl))
  · exact h

theorem agingEvent {s : State} (h : P s) : P (agingEvent s) := by
  unfold Machine.agingEvent
  split
  · split
    · exact hP.advanceEpoch (hP.plain h (by rfl))
    · exact hP.plain h (by rfl)
  · exact h

/-! ### Routing -/

theorem placeForeground {s : State} (o : Order) (h : P s) : P (placeForeground o s) := by
  refine hP.reportWork ?_
  cases o.port
  · exact hP.plain h (by rfl)
  · exact hP.plain h (by rfl)

theorem placeOrder {s : State} (a : Attempt) (i : Nat) (part : OrderPart) (address : Address) (h : P s) :
    P (placeOrder a i part address s) := hP.placeForeground _ h

theorem issuePiece {s : State} (a : Attempt) (route : Route) (parts : List OrderPart) (h : P s) :
    P (issuePiece a route parts s) := hP.modifyPiece _ _ _ h

theorem issueOne {s : State} (a : Attempt) (route : Route) (port : Port) (op : Operation) (address : Address) (h : P s) :
    P (issueOne a route port op address s) := hP.placeOrder _ _ _ _ (hP.issuePiece _ _ _ h)

theorem waitFor {s : State} (a : Attempt) (w : WaitReason) (h : P s) : P (waitFor a w s) := hP.modifyPiece _ _ _ h

theorem stopForRoom {s : State} (a : Attempt) (f p : Bool) (b : Blocked) (h : P s) : P (stopForRoom a f p b s).2 :=
  hP.waitFor _ _ h

theorem routeHeat {s : State} (a : Attempt) (h : P s) : P (routeHeat a s).2 := hP.heatUpdate _ _ _ h

theorem admitByEviction {s : State} (r : AdmissionRequest) (h : P s) : P (admitByEviction r s).2 := by
  unfold Machine.admitByEviction
  split
  · exact hP.bump _ (by decide) h
  · rename_i victim _ _
    split
    · exact hP.bump _ (by decide) h
    · have h1 := hP.evict victim h
      split
      · rename_i f s1 he
        rw [he] at h1
        exact hP.requestMove _ _ h1
      · rename_i s1 he
        rw [he] at h1
        exact hP.bump _ (by decide) h1

theorem admission {s : State} (r : AdmissionRequest) (h : P s) : P (admission r s).2 := by
  unfold Machine.admission
  split
  · exact h
  · split
    · exact hP.requestMove _ _ h
    · split
      · exact h
      · split
        · exact hP.requestMove _ _ h
        · exact hP.admitByEviction _ h

theorem issuePlatter {s : State} (a : Attempt) (route : Route) (op : Operation) (h : P s) : P (issuePlatter a route op s) := by
  have h1 := hP.issueOne a route .platter op (.platter a.piece.segment) (hP.routeHeat a h)
  unfold Machine.issuePlatter
  dsimp only
  split
  · exact hP.admission _ h1
  · exact h1

theorem tryPlatter {s : State} (a : Attempt) (route : Route) (op : Operation) (b : Blocked) (h : P s) :
    P (tryPlatter a route op b s).2 := by
  unfold Machine.tryPlatter
  split
  · exact hP.stopForRoom _ _ _ _ h
  · exact hP.issuePlatter _ _ _ h

theorem tryRead {s : State} (a : Attempt) (b : Blocked) (h : P s) : P (tryRead a b s).2 := by
  unfold Machine.tryRead
  split
  · exact hP.tryPlatter _ _ _ _ h
  · rename_i e he
    have h1 := hP.routeHeat a (hP.readHit _ e he h)
    dsimp only
    split
    · split
      · exact hP.stopForRoom _ _ _ _ h
      · exact hP.issueOne _ _ _ _ _ h1
    · split
      · split
        · exact hP.stopForRoom _ _ _ _ h
        · exact hP.placeOrder _ _ _ _ (hP.placeOrder _ _ _ _ (hP.issuePiece _ _ _ h1))
      · exact hP.tryPlatter _ _ _ _ h

theorem noFrame {s : State} (a : Attempt) (b : Blocked) (h : P s) : P (noFrame a b s).2 := by
  unfold Machine.noFrame
  split
  · exact h
  · split
    · exact hP.tryPlatter _ _ _ _ h
    · rename_i victim _ _
      have h1 := hP.evict victim h
      split
      · rename_i f s1 he
        rw [he] at h1
        exact hP.waitFor _ _ h1
      · rename_i s1 he
        rw [he] at h1
        exact hP.tryPlatter _ _ _ _ h1

theorem tryAbsorb {s : State} (a : Attempt) (b : Blocked) (h : P s) : P (tryAbsorb a b s).2 := by
  have h1 := hP.absorbRequest a.piece.segment h
  unfold Machine.tryAbsorb
  split
  · exact hP.stopForRoom _ _ _ _ h
  · split
    · rename_i f s1 hr
      rw [hr] at h1
      exact hP.issueOne _ _ _ _ _ (hP.routeHeat _ h1)
    · rename_i s1 hr
      rw [hr] at h1
      exact hP.noFrame _ _ h1

theorem holdByYield {s : State} (a : Attempt) (h : P s) : P (holdByYield a s) :=
  hP.yieldRequest _ (hP.modifyPiece _ _ _ h)

theorem tryWrite {s : State} (a : Attempt) (b : Blocked) (h : P s) : P (tryWrite a b s).2 := by
  unfold Machine.tryWrite
  split
  · exact hP.holdByYield _ h
  · split
    · exact hP.tryAbsorb _ _ h
    · split
      · exact hP.tryAbsorb _ _ h
      · exact hP.tryPlatter _ _ _ _ h

theorem trimToTail {s : State} (a : Attempt) (h : P s) : P (trimToTail a s) := hP.plain h (by rfl)

theorem tryTrim {s : State} (a : Attempt) (b : Blocked) (h : P s) : P (tryTrim a b s).2 := by
  unfold Machine.tryTrim
  split
  · exact hP.holdByYield _ h
  · split
    · exact hP.stopForRoom _ _ _ _ h
    · exact hP.trimToTail _ (hP.trimReport _ (hP.trimEffect _ _ (hP.issueOne _ _ _ _ _ h)))

theorem attemptRoute {s : State} (a : Attempt) (b : Blocked) (h : P s) : P (attemptRoute a b s).2 := by
  unfold Machine.attemptRoute
  split
  · exact hP.tryRead _ _ h
  · exact hP.tryWrite _ _ h
  · exact hP.tryTrim _ _ h
  · exact h

/-- A part that is placed outside a reissue: nothing but the queues and the pieces changes. -/
theorem placePartAnywhere {s : State} (tag : Fin 32) (segment i : Nat) (h : P s) : P (placePart tag segment i s) := by
  unfold Machine.placePart
  split
  · exact hP.placeForeground _ (hP.modifyPart _ _ _ _ h)
  · exact h

theorem attemptPlace {s : State} (tag : Fin 32) (segment i : Nat) (b : Blocked) (h : P s) :
    P (attemptPlace tag segment i b s).2 := by
  unfold Machine.attemptPlace
  split
  · exact h
  · exact hP.placePartAnywhere _ _ _ h

theorem tryPiece (tag : Fin 32) (segment : Nat) (acc : Blocked × State) (h : P acc.2) : P (tryPiece tag segment acc).2 := by
  unfold Machine.tryPiece
  split
  · split
    · exact h
    · exact hP.engineEvent (hP.attemptRoute _ _ h)
    · exact hP.engineEvent (hP.attemptRoute _ _ h)
    · exact hP.engineEvent (hP.attemptRoute _ _ h)
    · split
      · exact hP.attemptPlace _ _ _ _ h
      · exact h
    all_goals exact h
  · exact h

theorem tryPieces (tag : Fin 32) (segments : List Nat) (acc : Blocked × State) (h : P acc.2) :
    P (segments.foldl (fun acc segment => Machine.tryPiece tag segment acc) acc).2 := by
  induction segments generalizing acc with
  | nil => exact h
  | cons g gs ih => exact ih _ (hP.tryPiece _ _ _ h)

theorem tryCommand (acc : Blocked × State) (tag : Fin 32) (h : P acc.2) : P (tryCommand acc tag).2 := by
  unfold Machine.tryCommand
  split
  · exact hP.tryPieces _ _ _ h
  · exact h

theorem tryCommands (tags : List (Fin 32)) (acc : Blocked × State) (h : P acc.2) :
    P (tags.foldl Machine.tryCommand acc).2 := by
  induction tags generalizing acc with
  | nil => exact h
  | cons t ts ih => exact ih _ (hP.tryCommand _ _ h)

theorem routingPass {s : State} (h : P s) : P (routingPass s) := hP.tryCommands _ _ (hP.plain h (by rfl))

/-! ### Dispatch -/

theorem takeLabel {s : State} (d : Dispatched) (h : P s) : P (takeLabel d s) := by
  unfold Machine.takeLabel
  split
  · exact hP.takeWriteSeq h
  · exact h

theorem sendOrder {s : State} (p : Port) (d : Dispatched) (h : P s) : P (sendOrder p d s) := by
  cases p
  · exact hP.plain h (by rfl)
  · exact hP.plain h (by rfl)

theorem reportDispatch {s : State} (p : Port) (d : Dispatched) (h : P s) : P (reportDispatch p d s) := by
  cases p
  · unfold Machine.reportDispatch
    dsimp only
    split
    · exact hP.frameDispatched _ h
    · exact h
  · exact hP.reportWork (hP.plain h (by rfl))

theorem reportFlushStart {s : State} (d : Dispatched) (h : P s) : P (reportFlushStart d s) := by
  unfold Machine.reportFlushStart
  split
  · exact hP.flushStarts _ h
  · exact h

theorem roomAfter {s : State} (p : Port) (h : P s) : P (roomAfter p s) := by
  cases p
  · exact hP.giveRoom h
  · exact h

theorem dispatchForeground {s : State} (p : Port) (h : P s) : P (dispatchForeground p s) := by
  unfold Machine.dispatchForeground
  split
  · exact h
  · exact hP.callPass (hP.reportDispatch _ _ (hP.sendOrder _ _ (hP.setSched _ _ (hP.setSched _ _ (hP.takeLabel _ h)))))

theorem dispatchBackground {s : State} (p : Port) (i : Nat) (h : P s) : P (dispatchBackground p i s) := by
  unfold Machine.dispatchBackground
  split
  · exact h
  · exact hP.engineEvent (hP.roomAfter _ (hP.reportFlushStart _ (hP.reportDispatch _ _ (hP.sendOrder _ _
      (hP.setSched _ _ (hP.setSched _ _ (hP.takeLabel _ h)))))))

theorem dispatchLoop {s : State} (p : Port) (fuel : Nat) (h : P s) : P (dispatchLoop p fuel s) := by
  induction fuel generalizing s with
  | zero => exact h
  | succ fuel ih =>
    unfold Machine.dispatchLoop
    split
    · exact h
    · split
      · exact h
      · exact hP.dispatchForeground _ h
      · split
        · exact ih (hP.engineEvent (hP.giveRoom (hP.plain h (by rfl))))
        · exact hP.dispatchBackground _ _ h

theorem reportResult {s : State} (p : Port) (d : Dispatched) (h : P s) : P (reportResult p d s) := by
  cases p
  · unfold Machine.reportResult
    dsimp only
    split
    · exact hP.frameReturned _ _ h
    · exact h
  · exact hP.reportWork (hP.watchResult _ _ h)

/-! ### The Command Link -/

theorem onLink {s : State} (c : Instr) (f : State → State) (hf : P s → P (f s)) (h : P s) : P (onLink c f s) := by
  unfold Machine.onLink
  split
  · exact hf h
  · exact hP.plain h (by rfl)

/-- What a control transaction keeps: its accepted effect does so, and a refusal only completes and is counted. -/
theorem transaction {s t : State} {c : Instr} {k : TxnKind} {h : TxnHead} {check : State → Option Reason}
    {accept : State → State} (he : transaction c k h check accept s = .next t) (ha : P s → P (accept s)) (hs : P s) : P t := by
  cases he
  refine hP.onLink _ _ (fun hs => ?_) hs
  unfold Machine.transact
  split
  · exact hP.plain (hP.bump .transactionsRefused (by decide) hs) (by rfl)
  · exact ha hs

theorem reply {s : State} (k : TxnKind) (h : TxnHead) (status : TxnStatus) (results : TxnResults) (hs : P s) :
    P (reply k h status results s) := hP.plain hs (by rfl)

theorem takeDescriptor {s : State} (d : Descriptor) (h : P s) : P (takeDescriptor d s) := by
  have h1 : P (consultFor d s).2 := by
    unfold Machine.consultFor
    split
    · exact hP.consult _ _ h
    · exact hP.consult _ _ h
    · exact h
    · exact h
  have h2 : P (Machine.bump .commandsTaken (occupySlot d.tag (commandRecord d (consultFor d s).1 s) (consultFor d s).2)) :=
    hP.bump _ (by decide) (hP.plain h1 (by rfl))
  have h3 : P (tracked1 d s) := by
    unfold tracked1 reportFlushCache countCommand
    split
    · refine hP.streamEvent _ ?_
      split
      · exact hP.agingEvent h2
      · exact h2
    · split
      · exact hP.agingEvent h2
      · exact h2
  rw [takeDescriptor_eq]
  unfold openCommand
  split
  · exact h3
  · split
    · exact hP.testFlushCaches (hP.splitCommand _ h3)
    · exact hP.splitCommand _ h3

theorem withdrawAbsorbs {s : State} (os : List Order) (h : P s) : P (withdrawAbsorbs os s) := by
  induction os generalizing s with
  | nil => exact h
  | cons o os ih =>
    refine ih ?_
    dsimp only
    split
    · exact hP.absorbWithdrawn _ _ h
    · exact h

theorem linkResetEffect {s : State} (h : P s) : P (linkResetEffect s) :=
  hP.engineEvent (hP.streamEvent _ (hP.withdrawYields (hP.withdrawAbsorbs _ (hP.dropForeground
    (hP.plain (hP.bump .linkResets (by decide) h) (freeAllSlots_table _))))))

theorem prefetchOne (acc : Nat × State) (segment : Nat) (h : P acc.2) : P (prefetchOne acc segment).2 := by
  have h1 := hP.requestMove segment .directed h
  unfold Machine.prefetchOne
  dsimp only
  split
  · exact h
  · split
    · rename_i s1 hr
      rw [hr] at h1
      exact h1
    · rename_i s1 hr
      rw [hr] at h1
      exact h1

theorem prefetchAll {s : State} (start count : Nat) (h : P s) : P (prefetchAll start count s).2 := by
  unfold Machine.prefetchAll
  generalize (List.range count).map (fun i => start + i) = segments
  suffices hall : ∀ acc : Nat × State, P acc.2 → P (segments.foldl Machine.prefetchOne acc).2 from hall _ h
  induction segments with
  | nil => exact fun _ h => h
  | cons g gs ih => exact fun acc h => ih _ (hP.prefetchOne acc g h)

end Whole

end Sys2Proof.Machine

/-! ## What an executed command keeps -/

namespace Sys2Proof.Machine

/-- Whether a command loads, initializes and configures no component: it is none of the five that do, and no checkpoint READ of
a Restore is taken. -/
def Routine (c : Instr) (s : State) : Prop :=
  match c with
  | .powerOnReset | .configure _ _ _ _ | .setParameter _ _ _ | .initializeComponents _ _ | .resetEngineEnd => False
  | .orderResult _ _ => opKind s.cu.operation ≠ 4
  | .commandDescriptor _ | .linkReset | .discardedRecord _ | .unknownKind _ _ | .loadClass _ _ _ _ _ _
  | .loadRange _ _ _ _ _ _ _ | .reportSpindle _ _ | .setPortLevel _ _ _ | .save _ _ _ | .quiesceEnd | .restore _ _
  | .restoreHeaderRead | .rebuild _ | .rebuildLabelReads | .goOnline _ | .goOffline _ | .drainEnd | .prefetch _ _ _
  | .querySegment _ _ | .readStatus _ _ | .cancelBackground _ | .resetEngine _ | .millisecondTick | .timeAgingEvent
  | .platterQuiet | .routingPass | .orderDispatch _ | .responseLinkSend => True

namespace Whole

variable {P : State → Prop} (hP : Whole P)
include hP

theorem checkpointResult {s : State} (op : Operation) (ok : Bool) (data : List Byte) (hr : opKind s.cu.operation ≠ 4)
    (h : P s) : P (checkpointResult op ok data s) := by
  have h1 : P (if ok && op == .read then fillBuffer data s else s) := by
    split
    · exact hP.plain h (by rfl)
    · exact h
  have hop : (if ok && op == .read then fillBuffer data s else s).cu.operation = s.cu.operation := by split <;> rfl
  unfold Machine.checkpointResult
  dsimp only
  split
  · exact hP.saveResult _ _ h1
  · rename_i p hp
    rw [hop] at hp
    simp [hp, opKind] at hr
  all_goals exact h1

theorem handToOrigin {s : State} (d : Dispatched) (r : OrderResult) (hr : opKind s.cu.operation ≠ 4) (h : P s) :
    P (handToOrigin d r s) := by
  unfold Machine.handToOrigin
  split
  · exact hP.pieceResult _ _ _ _ _ _ h
  · exact hP.chunkResult _ _ _ _ h
  · exact hP.trimResult _ _ h
  · exact h
  · exact hP.labelResult _ _ _ h
  · exact hP.checkpointResult _ _ _ hr h

theorem takeResult {s : State} (p : Port) (r : OrderResult) (hr : opKind s.cu.operation ≠ 4) (h : P s) :
    P (takeResult p r s) := by
  have hleave : P (leaveOutstanding p r.id s) := hP.setSched _ _ h
  unfold Machine.takeResult
  split
  · exact h
  · rename_i d _
    dsimp only
    split
    · exact hleave
    · refine hP.engineEvent (hP.handToOrigin _ _ ?_ (hP.reportResult _ _ hleave))
      have hcalm := (reportResult_calm p d (leaveOutstanding p r.id s)).trans (setSched_calm p _ s)
      have hop := congrArg (fun c => c.base.op) hcalm
      exact fun h4 => hr (hop.symm.trans h4)

theorem timeAgingEffect {s : State} (h : P s) : P (timeAgingEffect s) := by
  unfold Machine.timeAgingEffect
  split
  · exact h
  · exact hP.agingEvent (hP.plain h (by rfl))

theorem sendRecord {s : State} (h : P s) : P (sendRecord s) := by
  unfold Machine.sendRecord
  split
  · exact hP.plain h (by rfl)
  · rename_i n ns _ hn
    exact hP.sendNotice _ _ hn h
  · exact h

theorem freeAllSlots {s : State} (h : P s) : P (freeAllSlots s) := hP.plain h (freeAllSlots_table s)

/-- A command that loads, initializes and configures nothing. -/
theorem exec_routine {c : Instr} {s t : State} (he : exec c s = .next t) (hr : Routine c s) (hs : P s) : P t := by
  cases c
  case powerOnReset => exact hr.elim
  case configure => exact hr.elim
  case setParameter => exact hr.elim
  case initializeComponents => exact hr.elim
  case resetEngineEnd => exact hr.elim
  case commandDescriptor d =>
    cases he
    refine hP.onLink _ _ (fun hs => ?_) hs
    split
    · exact hP.plain (hP.bump .descriptorsRefused (by decide) hs) (by rfl)
    · exact hP.takeDescriptor _ hs
  case linkReset =>
    cases he
    unfold Machine.onLinkInOrder
    split
    · exact hP.linkResetEffect hs
    · exact hP.plain hs (by rfl)
  case discardedRecord => cases he; exact hP.onLink _ _ (fun hs => hs) hs
  case unknownKind => cases he; exact hP.onLink _ _ (fun hs => hP.plain (hP.bump .transactionsRefused (by decide) hs) (by rfl)) hs
  case loadClass => exact hP.transaction he (fun hs => hP.reply _ _ _ _ (hP.touch _ (hP.plain hs (by rfl)))) hs
  case loadRange => exact hP.transaction he (fun hs => hP.reply _ _ _ _ (hP.touch _ (hP.plain hs (by rfl)))) hs
  case reportSpindle h b =>
    refine hP.transaction he (fun hs => ?_) hs
    split
    · refine hP.reply _ _ _ _ ?_
      split
      · exact hs
      · exact hP.engineEvent (hP.setPlatter _ hs)
    · exact hs
  case setPortLevel h port level =>
    refine hP.transaction he (fun hs => ?_) hs
    dsimp only
    split
    · exact hP.reply _ _ _ _ (hP.engineEvent (hP.setSched _ _ hs))
    · exact hs
  case save =>
    refine hP.transaction he (fun hs => ?_) hs
    unfold beginSave enterSaving
    split
    · exact hP.engineEvent (hP.holdForSave (hP.plain (hP.settle (.quiescing _ _) rfl hs) (by rfl)))
    · exact hP.plain (hP.settle (.quiescing _ _) rfl hs) (by rfl)
  case quiesceEnd =>
    cases he
    unfold quiesceEndEffect
    split
    · split
      · exact hP.planSave _ _ hs
      · exact hs
    all_goals exact hs
  case restore => exact hP.transaction he (fun hs => hP.plain (hP.settle (.restoreDraining _) rfl hs) (by rfl)) hs
  case restoreHeaderRead =>
    cases he
    unfold restoreHeaderReadEffect
    split
    · split
      · exact hs
      · exact hP.placeRequest _ _ _ _ (fun _ => by rfl) hs
    all_goals exact hs
  case rebuild => exact hP.transaction he (fun hs => hP.plain (hP.settle .rebuildDraining rfl hs) (by rfl)) hs
  case rebuildLabelReads =>
    cases he
    unfold rebuildLabelReadsEffect
    split
    · rename_i hop
      split
      · exact hs
      · exact hP.startLabelReads hop hs
    all_goals exact hs
  case goOnline =>
    exact hP.transaction he (fun hs => hP.reply _ _ _ _ (hP.engineEvent (hP.compareDirty (hP.plain hs (by rfl))))) hs
  case goOffline => exact hP.transaction he (fun hs => hP.engineEvent (hP.stopAll _ (hP.plain hs (by rfl)))) hs
  case drainEnd =>
    cases he
    split
    · exact hP.plain hs (by rfl)
    · exact hs
  case prefetch => exact hP.transaction he (fun hs => hP.reply _ _ _ _ (hP.engineEvent (hP.prefetchAll _ _ hs))) hs
  case querySegment => exact hP.transaction he (fun hs => hP.reply _ _ _ _ hs) hs
  case readStatus h clear =>
    refine hP.transaction he (fun hs => hP.reply _ _ _ _ ?_) hs
    split
    · exact hP.plain hs (by rfl)
    · exact hs
  case cancelBackground => exact hP.transaction he (fun hs => hP.reply _ _ _ _ (hP.engineEvent (hP.stopAll _ hs))) hs
  case resetEngine h =>
    refine hP.transaction he (fun hs => ?_) hs
    have h1 : P (Machine.freeAllSlots (setMarker .resetEngine h s)) := hP.freeAllSlots (hP.plain hs (by rfl))
    exact hP.plain (hP.settle .idle rfl h1) (by rfl)
  case millisecondTick =>
    cases he
    rw [quietTick_eq, residueTick_eq]
    exact hP.plain hs (by rfl)
  case timeAgingEvent => cases he; exact hP.timeAgingEffect hs
  case platterQuiet =>
    cases he
    unfold platterQuietEffect
    split
    · exact hP.occur _ _ (by decide) (by decide) (hP.plain hs (by rfl))
    · exact hs
  case routingPass =>
    cases he
    split
    · exact hP.routingPass hs
    · exact hs
  case orderDispatch p => cases he; exact hP.dispatchLoop _ _ hs
  case orderResult p r => cases he; exact hP.takeResult _ _ hr hs
  case responseLinkSend => cases he; exact hP.sendRecord hs

end Whole

/-- The predicates kept by the results of a Restore's orders as well. -/
structure Reloading (P : State → Prop) : Prop extends Resulting P where
  writeSeq : ∀ {s} w, P s → P { s with sm.writeSeq := w }
  load : ∀ {s t} c data e, loadRecord c data e s = some t → P s → P t
  init : ∀ {s} c, P s → P (initComponent c s)
  reconcile : ∀ {s}, P s → P (reconcile s)

/-- The predicates kept by a load and an initialization as well. -/
structure Restoring (P : State → Prop) : Prop extends Whole P where
  writeSeq : ∀ {s} w, P s → P { s with sm.writeSeq := w }
  load : ∀ {s t} c data e, loadRecord c data e s = some t → P s → P t
  init : ∀ {s} c, P s → P (initComponent c s)
  reconcile : ∀ {s}, P s → P (reconcile s)

/-- The predicates kept by every command. -/
structure Loading (P : State → Prop) : Prop extends Restoring P where
  configure : ∀ {s} n p b, P s → P (configureEffect n p b s)
  parameters : ∀ {s} p, P s → P { s with params := p }
  reset : ∀ {t}, tablePart t = tablePart State.reset → P t

namespace Reloading

variable {P : State → Prop} (hP : Reloading P)
include hP

theorem reconcileIf {s : State} (v : CompSet) (h : P s) : P (reconcileIf v s) := by
  unfold Machine.reconcileIf
  split
  · exact hP.reconcile h
  · exact h

theorem endRestore {s : State} (status : TxnStatus) (results : TxnResults) (h : P s) : P (endRestore status results s) :=
  hP.steady (hP.settle .idle rfl h) (by rfl) (by rfl)

theorem restoreNext {s : State} (cs : List (Fin 6)) (p : RestoreProgress) (h : P s) : P (restoreNext cs p s) := by
  induction cs generalizing p s with
  | nil => exact hP.endRestore _ _ (hP.reconcileIf _ h)
  | cons c cs ih =>
    unfold Machine.restoreNext
    split
    · exact ih _ (hP.init _ h)
    · split
      · exact ih _ (hP.init _ h)
      · exact hP.placeRequest _ _ _ _ (fun _ => by rfl) h

theorem restoreResult {s : State} (p : RestoreProgress) (ok : Bool) (h : P s) : P (restoreResult p ok s) := by
  unfold Machine.restoreResult
  split
  · unfold Machine.headerResult
    dsimp only
    split
    · exact hP.endRestore _ _ h
    · split
      · exact hP.endRestore _ _ h
      · split
        · exact hP.endRestore _ _ h
        · exact hP.restoreNext _ _ (hP.touch _ (hP.steady (hP.writeSeq _ h) (by rfl) (by rfl)))
  · rename_i c _
    unfold Machine.recordResult
    dsimp only
    split
    · rename_i s1 hl
      split at hl
      · exact hP.restoreNext _ _ (hP.steady (hP.load _ _ _ hl h) (by rfl) (by rfl))
      · cases hl
    · exact hP.restoreNext _ _ (hP.init _ h)

theorem checkpointResult {s : State} (op : Operation) (ok : Bool) (data : List Byte) (h : P s) :
    P (checkpointResult op ok data s) := by
  have h1 : P (if ok && op == .read then fillBuffer data s else s) := by
    split
    · exact hP.steady h (by rfl) (by rfl)
    · exact h
  unfold Machine.checkpointResult
  dsimp only
  split
  · exact hP.saveResult _ _ h1
  · exact hP.restoreResult _ _ h1
  all_goals exact h1

theorem handToOrigin {s : State} (d : Dispatched) (r : OrderResult) (h : P s) : P (handToOrigin d r s) := by
  unfold Machine.handToOrigin
  split
  · exact hP.pieceResult _ _ _ _ _ _ h
  · exact hP.chunkResult _ _ _ _ h
  · exact hP.trimResult _ _ h
  · exact h
  · exact hP.labelResult _ _ _ h
  · exact hP.checkpointResult _ _ _ h

end Reloading

namespace Restoring

variable {P : State → Prop} (hP : Restoring P)
include hP

theorem reloading : Reloading P where
  toResulting := hP.toResulting
  writeSeq := hP.writeSeq
  load := hP.load
  init := hP.init
  reconcile := hP.reconcile

theorem takeResult {s : State} (p : Port) (r : OrderResult) (h : P s) : P (takeResult p r s) := by
  have hleave : P (leaveOutstanding p r.id s) := hP.setSched _ _ h
  unfold Machine.takeResult
  split
  · exact h
  · dsimp only
    split
    · exact hleave
    · exact hP.engineEvent (hP.reloading.handToOrigin _ _ (hP.reportResult _ _ hleave))

theorem initAll {s : State} (cs : List (Fin 6)) (h : P s) : P (cs.foldl (fun t c => Machine.initComponent c t) s) := by
  induction cs generalizing s with
  | nil => exact h
  | cons c cs ih => exact ih (hP.init c h)

end Restoring

namespace Loading

variable {P : State → Prop} (hP : Loading P)
include hP

theorem exec {c : Instr} {s t : State} (he : exec c s = .next t) (hs : P s) : P t := by
  by_cases hr : Routine c s
  · exact hP.exec_routine he hr hs
  · cases c
    case powerOnReset => cases he; exact hP.reset rfl
    case configure =>
      exact hP.transaction he (fun hs => hP.reply _ _ _ _ (hP.configure _ _ _ hs)) hs
    case setParameter =>
      refine hP.transaction he (fun hs => ?_) hs
      split
      · refine hP.reply _ _ _ _ ?_
        unfold reportDirtyBounds
        split
        · exact hP.engineEvent (hP.compareDirty (hP.touch _ (hP.parameters _ hs)))
        · exact hP.touch _ (hP.parameters _ hs)
      · exact hs
    case initializeComponents =>
      exact hP.transaction he (fun hs => hP.reply _ _ _ _ (hP.reloading.reconcileIf _ (hP.initAll _ hs))) hs
    case resetEngineEnd =>
      cases he
      split
      · exact hP.reset rfl
      · exact hs
    case orderResult p r => cases he; exact hP.takeResult _ _ hs
    all_goals exact absurd trivial hr

theorem step {s t : State} (he : step s = .next t) (hs : P s) : P t := by
  rcases step_cases he with rfl | ⟨c, q, u, rest, v, hv, rfl⟩
  · exact hs
  · exact hP.plain (hP.exec hv (hP.plain hs (by rfl))) (by rfl)

end Loading

end Sys2Proof.Machine

/-! ## The bounds of the counters and notices, the candidates and the streams in every step -/

namespace Sys2Proof.Machine

/-- What the map operations neither read nor change of the tables: a predicate about the counters, notices, candidates and
streams alone is kept by every routine command once the operations on those four tables keep it. -/
structure Tabular (P : State → Prop) : Prop where
  same : ∀ {s t}, P s → t.stats = s.stats → t.lu.notices = s.lu.notices → t.lu.deferred = s.lu.deferred →
    t.hu.candidates = s.hu.candidates → t.streams = s.streams → P t
  bump : ∀ {s} k, P s → P (bump k s)
  occur : ∀ {s} k a, P s → P (occur k a s)
  sendNotice : ∀ {s} n rest, s.lu.notices = n :: rest → P s → P (sendNotice n rest s)
  consult : ∀ {s} start length, P s → P (consultStreams start length s).2
  clearStreams : ∀ {s}, P s → P (clearStreams s)
  takeCandidate : ∀ {s} g, P s → P (takeCandidate g s).2
  heatAbsent : ∀ {s} g c, P s → P (heatAbsent g c s).2
  discardMapped : ∀ {s}, P s → P (discardMapped s)
  clampCandidates : ∀ {s}, P s → P (clampCandidates s)
  setCandidates : ∀ {s} cs, candidatesWf cs → P s → P { s with hu.candidates := cs }
  setStreams : ∀ {s} v, streamsWf v → P s → P { s with streams := v }
  setStats : ∀ {s} v, (∀ i : Fin 32, v[i] ≤ 4294967295) → P s → P { s with stats := v }
  reset : P State.reset

/-! ### Loaded tables are well formed -/

theorem candidatesWf_nil : candidatesWf [] := by simp [candidatesWf]

theorem streamsWf_initial : streamsWf (Vector.replicate 8 StreamRec.initial) := by simp [streamsWf, StreamRec.initial]

theorem readLE_lt (data : List Byte) (o n : Nat) : readLE data o n < 256 ^ n := by
  induction n generalizing o with
  | zero => simp [readLE]
  | succ n ih =>
    have h1 := ih (o + 1)
    have h2 := (data.getD o 0).isLt
    simp only [readLE, Nat.pow_succ]
    omega

theorem readWays_places {n p : Nat} {bs : List Byte} :
    placesAscend (readWays n p bs) ∧ ∀ c ∈ readWays n p bs, p ≤ c.place := by
  induction n generalizing p bs with
  | zero => simp [readWays, placesAscend]
  | succ n ih =>
    obtain ⟨hasc, hle⟩ := ih (p := p + 1) (bs := bs.drop 16)
    unfold readWays
    dsimp only
    split
    · exact ⟨hasc, fun c hc => by have := hle c hc; omega⟩
    · refine ⟨List.pairwise_cons.2 ⟨fun c hc => ?_, hasc⟩, fun c hc => ?_⟩
      · have := hle c hc
        dsimp only
        omega
      · rcases List.mem_cons.1 hc with rfl | hc
        · exact Nat.le_refl p
        · have := hle c hc
          omega

/-- The candidates of a consistent C1 record are well formed (R178). -/
theorem candidatesWf_readWays {n p : Nat} {bs : List Byte} (h : heatConsistent (readWays n p bs) = true) :
    candidatesWf (readWays n p bs) := by
  simp only [heatConsistent, heatConsistent.candidateSetOf, Bool.and_eq_true, List.all_eq_true, beq_iff_eq,
    decide_eq_true_eq] at h
  exact ⟨(placesAscend_iff _).2 readWays_places.1, h.2, fun c hc => (h.1 c hc).symm⟩

theorem countP_finRange_eight (p : Fin 8 → Bool) :
    (List.finRange 8).countP p = (Finset.univ.filter fun j : Fin 8 => p j = true).card := by
  rw [Finset.card_filter, Fin.sum_univ_eight]
  simp [List.finRange_succ, List.countP_cons]
  omega

/-- Whether record j stands before record i in saved order (R178). -/
def savedBefore (v : Vector StreamRec 8) (j i : Fin 8) : Bool :=
  v[j].valid && (decide (v[j].rank < v[i].rank) || (v[j].rank == v[i].rank && decide (j < i)))

theorem savedBefore_iff (v : Vector StreamRec 8) (j i : Fin 8) :
    savedBefore v j i = true ↔ v[j].valid = true ∧ (v[j].rank < v[i].rank ∨ (v[j].rank = v[i].rank ∧ j < i)) := by
  simp [savedBefore, -Fin.getElem_fin]

theorem savedRank_eq (v : Vector StreamRec 8) (i : Fin 8) :
    savedRank v i = (Finset.univ.filter fun j : Fin 8 => savedBefore v j i = true).card := countP_finRange_eight _

theorem savedRank_lt {v : Vector StreamRec 8} {a b : Fin 8} (h : savedBefore v a b = true) :
    savedRank v a < savedRank v b := by
  rw [savedRank_eq, savedRank_eq]
  refine Finset.card_lt_card ⟨fun j hj => ?_, fun hsub => ?_⟩
  · simp only [Finset.mem_filter, Finset.mem_univ, true_and, savedBefore_iff] at hj h ⊢
    refine ⟨hj.1, ?_⟩
    rcases hj.2 with h1 | ⟨h1, h2⟩ <;> rcases h.2 with h3 | ⟨h3, h4⟩
    · omega
    · omega
    · omega
    · exact .inr ⟨h1.trans h3, h2.trans h4⟩
  · have hmem : a ∈ Finset.univ.filter fun j : Fin 8 => savedBefore v j a = true := hsub (by simpa using h)
    simp only [Finset.mem_filter, Finset.mem_univ, true_and, savedBefore_iff] at hmem
    exact hmem.2.elim (Nat.lt_irrefl _) (lt_irrefl _)

theorem savedRank_lt_validCount {v : Vector StreamRec 8} {i : Fin 8} (hi : v[i].valid = true) :
    savedRank v i < validCount v := by
  rw [savedRank_eq]
  refine Finset.card_lt_card ⟨fun j hj => ?_, fun hsub => ?_⟩
  · simp only [Finset.mem_filter, Finset.mem_univ, true_and, savedBefore_iff] at hj ⊢
    exact hj.1
  · have hmem : i ∈ Finset.univ.filter fun j : Fin 8 => savedBefore v j i = true := hsub (by simpa using hi)
    simp only [Finset.mem_filter, Finset.mem_univ, true_and, savedBefore_iff] at hmem
    exact hmem.2.elim (Nat.lt_irrefl _) (lt_irrefl _)

theorem renumberRanks_fields (v : Vector StreamRec 8) (i : Fin 8) :
    (renumberRanks v)[i].valid = v[i].valid ∧ (renumberRanks v)[i].next = v[i].next
      ∧ (v[i].valid = true → (renumberRanks v)[i].rank = savedRank v i) := by
  have h : (renumberRanks v)[i] = if v[i].valid then { v[i] with rank := savedRank v i } else v[i] := by
    simp [renumberRanks]
  rw [h]
  split
  · exact ⟨rfl, rfl, fun _ => rfl⟩
  · exact ⟨rfl, rfl, fun hv => absurd hv ‹_›⟩

theorem ranksWf_renumberRanks (v : Vector StreamRec 8) : ranksWf (renumberRanks v) := by
  have hcount : validCount (renumberRanks v) = validCount v := by
    unfold validCount
    simp only [(renumberRanks_fields v _).1]
  refine ⟨fun a b hab ha hb => ?_, fun a ha => ?_⟩
  · obtain ⟨hav, -, har⟩ := renumberRanks_fields v a
    obtain ⟨hbv, -, hbr⟩ := renumberRanks_fields v b
    rw [hav] at ha
    rw [hbv] at hb
    rw [har ha, hbr hb]
    have htotal : savedBefore v a b = true ∨ savedBefore v b a = true := by
      rw [savedBefore_iff, savedBefore_iff]
      rcases Nat.lt_trichotomy v[a].rank v[b].rank with h | h | h
      · exact .inl ⟨ha, .inl h⟩
      · rcases lt_or_gt_of_ne hab with hl | hl
        · exact .inl ⟨ha, .inr ⟨h, hl⟩⟩
        · exact .inr ⟨hb, .inr ⟨h.symm, hl⟩⟩
      · exact .inr ⟨hb, .inl h⟩
    rcases htotal with h | h
    · exact (savedRank_lt h).ne
    · exact (savedRank_lt h).ne'
  · obtain ⟨hav, -, har⟩ := renumberRanks_fields v a
    rw [hav] at ha
    rw [har ha, hcount]
    exact savedRank_lt_validCount ha

theorem dropLaterDuplicates_valid {v : Vector StreamRec 8} {i : Fin 8} (h : (dropLaterDuplicates v)[i].valid = true) :
    (dropLaterDuplicates v)[i] = v[i] ∧ v[i].valid = true
      ∧ ∀ j : Fin 8, j < i → v[j].valid = true → v[j].next ≠ v[i].next := by
  have heq : (dropLaterDuplicates v)[i] =
      if v[i].valid && (List.finRange 8).any fun j => decide (j < i) && v[j].valid && v[j].next == v[i].next then
        lostStream v[i] else v[i] := by
    simp [dropLaterDuplicates]
  rw [heq] at h ⊢
  split at h
  · simp [lostStream] at h
  · rename_i hno
    rw [if_neg hno]
    refine ⟨rfl, h, fun j hj hv hn => hno ?_⟩
    simp only [Bool.and_eq_true, List.any_eq_true, decide_eq_true_eq, beq_iff_eq]
    exact ⟨h, j, List.mem_finRange j, ⟨hj, hv⟩, hn⟩

/-- Saved stream records renumbered and without duplicates are well formed (R68, R178). -/
theorem streamsWf_renumbered (v : Vector StreamRec 8) : streamsWf (renumberRanks (dropLaterDuplicates v)) := by
  refine (streamsWf_iff _).2 ⟨fun a b hab ha hb => ?_, ranksWf_renumberRanks _⟩
  obtain ⟨hav, han, -⟩ := renumberRanks_fields (dropLaterDuplicates v) a
  obtain ⟨hbv, hbn, -⟩ := renumberRanks_fields (dropLaterDuplicates v) b
  rw [hav] at ha
  rw [hbv] at hb
  obtain ⟨hae, hav, hal⟩ := dropLaterDuplicates_valid ha
  obtain ⟨hbe, hbv, hbl⟩ := dropLaterDuplicates_valid hb
  rw [han, hbn, hae, hbe]
  rcases lt_or_gt_of_ne hab with h | h
  · exact hbl a h hav
  · exact (hal b h hbv).symm

namespace Tabular

variable {P : State → Prop} (hP : Tabular P)
include hP

theorem core : Core P where
  touch := fun _ h => hP.same h rfl rfl rfl rfl rfl
  bump := fun k _ => hP.bump k
  occur := fun k a _ _ => hP.occur k a
  monitor := fun _ _ h => hP.same h rfl rfl rfl rfl rfl
  tracker := fun _ _ h => hP.same h rfl rfl rfl rfl rfl
  held := fun _ h => hP.same h rfl rfl rfl rfl rfl
  operation := fun _ _ h => hP.same h rfl rfl rfl rfl rfl
  flash := fun _ _ h => hP.same h rfl rfl rfl rfl rfl
  platter := fun _ _ h => hP.same h rfl rfl rfl rfl rfl
  reissued := fun _ _ _ _ h => hP.same h rfl rfl rfl rfl rfl
  moves := fun _ h => hP.same h rfl rfl rfl rfl rfl
  map := fun _ h => hP.same h rfl rfl rfl rfl rfl
  takeCandidate := hP.takeCandidate

theorem heatPresent {s : State} (e : Entry) (c : Nat) (h : P s) : P (heatPresent e c s).2 := by
  unfold Machine.heatPresent
  dsimp only
  split
  · exact hP.occur _ _ (hP.same h rfl rfl rfl rfl rfl)
  · exact hP.same h rfl rfl rfl rfl rfl

theorem heatUpdate {s : State} (segment : Nat) (cmd : Command) (boost : Nat) (h : P s) :
    P (heatUpdate segment cmd boost s).2 := by
  unfold Machine.heatUpdate
  split
  · exact hP.heatPresent _ _ h
  · exact hP.heatAbsent _ _ h

theorem askTrims {s : State} (fs : List Nat) (h : P s) : P (askTrims fs s) := by
  unfold Machine.askTrims
  induction fs generalizing s with
  | nil => exact h
  | cons f fs ih => exact ih (hP.core.askTrim f h)

theorem reconcile {s : State} (h : P s) : P (reconcile s) := by
  have h1 := hP.clampCandidates (hP.discardMapped h)
  unfold Machine.reconcile Machine.clampEntries
  split
  · exact hP.same h1 rfl rfl rfl rfl rfl
  · exact h1

theorem init {s : State} (c : Fin 6) (h : P s) : P (initComponent c s) := by
  fin_cases c
  · exact hP.same h rfl rfl rfl rfl rfl
  · exact hP.same (hP.setCandidates [] candidatesWf_nil h) rfl rfl rfl rfl rfl
  · exact hP.same h rfl rfl rfl rfl rfl
  · exact hP.same h rfl rfl rfl rfl rfl
  · exact hP.same (hP.setStreams _ streamsWf_initial h) rfl rfl rfl rfl rfl
  · exact hP.same (hP.setStats (Vector.replicate 32 0) (by simp) h) rfl rfl rfl rfl rfl

theorem loadBody {s t : State} {c : Fin 6} {data body : List Byte} (hl : loadBody c data body s = some t) (h : P s) : P t := by
  unfold Machine.loadBody at hl
  split at hl
  · unfold loadC0 at hl
    split at hl
    · split at hl
      · cases hl
        exact hP.askTrims _ (hP.same h rfl rfl rfl rfl rfl)
      · cases hl
    · cases hl
  · unfold loadC1 at hl
    dsimp only at hl
    split at hl
    · rename_i hc
      cases hl
      exact hP.same (hP.setCandidates _ (candidatesWf_readWays hc) h) rfl rfl rfl rfl rfl
    · cases hl
  · cases hl
    exact hP.same h rfl rfl rfl rfl rfl
  · cases hl
    exact hP.same h rfl rfl rfl rfl rfl
  · cases hl
    exact hP.setStreams _ (streamsWf_renumbered _) h
  · cases hl
    exact hP.setStats _ (fun i => by simpa using Nat.le_of_lt_succ (readLE_lt _ _ 4)) h

theorem load {s t : State} (c : Fin 6) (data : List Byte) (e : RecordEntry) (hl : loadRecord c data e s = some t) (h : P s) :
    P t := hP.loadBody hl (hP.same h rfl rfl rfl rfl rfl)

theorem finishRebuild {s : State} (p : RebuildProgress) (h : P s) : P (finishRebuild p s) := by
  have h1 : P (Machine.reconcile (touch 0 (loadMap (assembledMap p s) (rebuiltSeq p s) s))) :=
    hP.reconcile (hP.core.touch 0 (hP.askTrims _ (hP.same h rfl rfl rfl rfl rfl)))
  exact hP.same h1 rfl rfl rfl rfl rfl

theorem labelResult {s : State} (f : Nat) (ok : Bool) (l : FrameLabel) (h : P s) : P (labelResult f ok l s) := by
  unfold Machine.labelResult
  split
  · rename_i p _
    have h1 : P (classFrame f ok l { p with returned := p.returned + 1 } s).2 := by
      unfold classFrame classLabel
      split
      · exact h
      · split
        · exact hP.bump _ h
        · split
          · exact h
          · dsimp only
            split
            · exact h
            · exact hP.same h rfl rfl rfl rfl rfl
    dsimp only
    unfold rebuildTest
    split
    · exact hP.finishRebuild _ h1
    · exact hP.same h1 rfl rfl rfl rfl rfl
  all_goals exact h

theorem startLabelReads {s : State} (h : P s) : P (startLabelReads s) := by
  have h1 : P (initComponent 0 { s with cu.rebuildTable := [] }) := hP.init 0 (hP.same h rfl rfl rfl rfl rfl)
  unfold Machine.startLabelReads
  dsimp only
  split
  · exact hP.finishRebuild _ h1
  · exact hP.core.placeLabelReads (hP.same h1 rfl rfl rfl rfl rfl)

theorem whole : Whole P where
  toMapped := hP.core.mapped
  steady := fun h ht _ => hP.same h (congrArg TablePart.stats ht) (congrArg TablePart.notices ht)
    (congrArg TablePart.deferred ht) (congrArg TablePart.candidates ht) (congrArg TablePart.streams ht)
  degraded := hP.bump .degradedEntries
  platterNotice := hP.occur
  plain := fun h ht => hP.same h (congrArg TablePart.stats ht) (congrArg TablePart.notices ht)
    (congrArg TablePart.deferred ht) (congrArg TablePart.candidates ht) (congrArg TablePart.streams ht)
  settle := fun _ _ h => hP.same h rfl rfl rfl rfl rfl
  consult := hP.consult
  clearStreams := hP.clearStreams
  sendNotice := hP.sendNotice
  heatUpdate := hP.heatUpdate
  readHit := fun segment e _ h => by
    unfold readHit
    split
    · exact hP.core.toReclaimTail _ h
    · exact h
  absorbRequest := hP.core.absorbRequest
  absorbOk := hP.core.absorbOk
  absorbError := hP.core.absorbError
  absorbWithdrawn := hP.core.absorbWithdrawn
  readError := hP.core.readError
  trimEffect := hP.core.trimEffect
  evict := hP.core.evict
  frameDispatched := hP.core.frameDispatched
  frameReturned := hP.core.frameReturned
  trimResult := hP.core.trimResult
  takeWriteSeq := hP.core.takeWriteSeq
  labelResult := hP.labelResult
  startLabelReads := fun _ h => hP.startLabelReads h

theorem restoring : Restoring P where
  toWhole := hP.whole
  writeSeq := fun _ h => hP.same h rfl rfl rfl rfl rfl
  load := hP.load
  init := hP.init
  reconcile := hP.reconcile

theorem loading : Loading P where
  toRestoring := hP.restoring
  configure := fun _ _ _ h => hP.same h rfl rfl rfl rfl rfl
  parameters := fun _ h => hP.same h rfl rfl rfl rfl rfl
  reset := fun ht => hP.same hP.reset (congrArg TablePart.stats ht) (congrArg TablePart.notices ht)
    (congrArg TablePart.deferred ht) (congrArg TablePart.candidates ht) (congrArg TablePart.streams ht)

end Tabular

end Sys2Proof.Machine

/-! ## The bounds of the counters, the notice queue and the parameters -/

namespace Sys2Proof.Machine

/-! ### Notices change the Link Unit and the counters -/

section
variable {P : State → Prop} (hb : ∀ {s} k, k ≠ .degradedEntries → P s → P (bump k s)) (hl : ∀ {s} l, P s → P { s with lu := l })
include hb hl

theorem post_keeps {s : State} (k : NoticeKind) (h : P s) : P (post k s) := by
  unfold post
  dsimp only
  split
  · exact hl (s := s) _ h
  · split
    · exact hb _ (by decide) (hl (s := s) _ h)
    · split
      · exact h
      · exact hb _ (by decide) (hl (s := s) _ h)

theorem occur_keeps {s : State} (k : NoticeKind) (a : Nat) (h : P s) : P (occur k a s) := by
  unfold occur
  dsimp only
  split
  · exact h
  · split
    · exact post_keeps hb hl k (hl (s := s) _ h)
    · exact hl (s := s) _ h

theorem sendNotice_keeps {s : State} (hw : ∀ {s} w, P s → P { s with responseWire := w }) (n : Notice) (rest : List Notice)
    (h : P s) : P (sendNotice n rest s) := by
  unfold sendNotice postDeferred
  have h1 := hb (.noticesSent n.kind) nofun (hw (noticeBytes n) (hl { s.lu with notices := rest } h))
  split
  · exact h1
  · exact post_keeps hb hl _ (hl (s := bump _ _) _ h1)

end

/-- A tabular predicate that does not speak of the candidates. -/
theorem tabular_of_link_and_streams {P : State → Prop}
    (same : ∀ {s t}, P s → t.stats = s.stats → t.lu.notices = s.lu.notices → t.lu.deferred = s.lu.deferred →
      t.streams = s.streams → P t)
    (bump : ∀ {s} k, P s → P (Machine.bump k s)) (occur : ∀ {s} k a, P s → P (Machine.occur k a s))
    (sendNotice : ∀ {s} n rest, s.lu.notices = n :: rest → P s → P (Machine.sendNotice n rest s))
    (consult : ∀ {s} start length, P s → P (consultStreams start length s).2)
    (clearStreams : ∀ {s}, P s → P (Machine.clearStreams s))
    (setStreams : ∀ {s} v, streamsWf v → P s → P { s with streams := v })
    (setStats : ∀ {s} v, (∀ i : Fin 32, v[i] ≤ 4294967295) → P s → P { s with stats := v })
    (reset : P State.reset) : Tabular P where
  same := fun h h1 h2 h3 _ h4 => same h h1 h2 h3 h4
  bump := bump
  occur := occur
  sendNotice := sendNotice
  consult := consult
  clearStreams := clearStreams
  takeCandidate := fun g h => by
    unfold Machine.takeCandidate
    split
    · exact same h rfl rfl rfl rfl
    · exact h
  heatAbsent := fun g c h => by
    unfold Machine.heatAbsent
    split
    · dsimp only
      split
      · exact occur _ _ (same h rfl rfl rfl rfl)
      · exact same h rfl rfl rfl rfl
    · split
      · exact h
      · dsimp only
        split
        · exact same h rfl rfl rfl rfl
        · split
          · split
            · exact same h rfl rfl rfl rfl
            · exact bump _ h
          · exact h
  discardMapped := fun h => by
    unfold discardMapped
    split
    · exact same h rfl rfl rfl rfl
    · exact h
  clampCandidates := fun h => by
    unfold clampCandidates
    split
    · exact same h rfl rfl rfl rfl
    · exact h
  setCandidates := fun _ _ h => same h rfl rfl rfl rfl
  setStreams := setStreams
  setStats := setStats
  reset := reset

/-- A tabular predicate that does not speak of the streams either. -/
theorem tabular_of_link {P : State → Prop}
    (same : ∀ {s t}, P s → t.stats = s.stats → t.lu.notices = s.lu.notices → t.lu.deferred = s.lu.deferred → P t)
    (bump : ∀ {s} k, P s → P (Machine.bump k s)) (occur : ∀ {s} k a, P s → P (Machine.occur k a s))
    (sendNotice : ∀ {s} n rest, s.lu.notices = n :: rest → P s → P (Machine.sendNotice n rest s))
    (setStats : ∀ {s} v, (∀ i : Fin 32, v[i] ≤ 4294967295) → P s → P { s with stats := v })
    (reset : P State.reset) : Tabular P :=
  tabular_of_link_and_streams (fun h h1 h2 h3 _ => same h h1 h2 h3) bump occur sendNotice
    (fun _ _ h => by unfold consultStreams; split <;> exact same h rfl rfl rfl)
    (fun h => by unfold clearStreams; split <;> exact same h rfl rfl rfl)
    (fun _ _ h => same h rfl rfl rfl) setStats reset

/-! ### Counters -/

theorem countersBounded_of_stats {s t : State} (h : t.stats = s.stats) (hs : countersBounded s) : countersBounded t := by
  intro i
  rw [h]
  exact hs i

theorem countersBounded_bump {s : State} (k : Counter) (hs : countersBounded s) : countersBounded (bump k s) := by
  intro i
  have hi := hs i
  unfold bump
  split
  · rename_i hlt
    show (s.stats.set _ _)[i.val] ≤ _
    rw [Vector.getElem_set]
    split
    · exact hlt
    · exact hi
  · exact hi

theorem countersBounded_tabular : Tabular countersBounded :=
  tabular_of_link (fun h h1 _ _ => countersBounded_of_stats h1 h) countersBounded_bump
    (occur_keeps (fun k _ => countersBounded_bump k) fun _ h => h)
    (fun n rest _ => sendNotice_keeps (fun k _ => countersBounded_bump k) (fun _ h => h) (fun _ h => h) n rest)
    (fun _ hv _ => hv) (by unfold countersBounded; decide)

/-! ### The notice queue -/

theorem noticesBounded_of_same {s t : State} (hs : noticesBounded s) (hn : t.lu.notices = s.lu.notices)
    (hd : t.lu.deferred = s.lu.deferred) : noticesBounded t := by
  unfold noticesBounded
  rw [hn, hd]
  exact hs

theorem noticesBounded_bump {s : State} (k : Counter) (hs : noticesBounded s) : noticesBounded (bump k s) :=
  noticesBounded_of_same hs (by rw [bump_lu]) (by rw [bump_lu])

theorem mergeNotice_length {n : Notice} {ns q : List Notice} (h : mergeNotice n ns = some q) : q.length = ns.length := by
  induction ns generalizing q with
  | nil => cases h
  | cons m ms ih =>
    unfold mergeNotice at h
    split at h
    · rename_i r hr
      cases h
      simp [ih hr]
    · split at h
      · cases h
        rfl
      · cases h

theorem noticesBounded_post {s : State} (k : NoticeKind) (hs : noticesBounded s) : noticesBounded (post k s) := by
  obtain ⟨hn, hd⟩ := hs
  unfold post
  dsimp only
  split
  · rename_i hlt
    exact ⟨by simpa using hlt, hd⟩
  · split
    · rename_i q hq
      exact noticesBounded_bump _ ⟨(mergeNotice_length hq).le.trans hn, hd⟩
    · split
      · exact ⟨hn, hd⟩
      · rename_i hk
        refine noticesBounded_bump _ ⟨hn, ?_⟩
        exact List.nodup_append.2 ⟨hd, List.nodup_singleton k, fun a ha b hb heq => hk (by simp_all)⟩

theorem noticesBounded_occur {s : State} (k : NoticeKind) (a : Nat) (hs : noticesBounded s) :
    noticesBounded (occur k a s) := by
  unfold occur
  dsimp only
  split
  · exact hs
  · split
    · exact noticesBounded_post k hs
    · exact hs

theorem noticesBounded_sendNotice {s : State} (n : Notice) (rest : List Notice) (h : s.lu.notices = n :: rest)
    (hs : noticesBounded s) : noticesBounded (sendNotice n rest s) := by
  obtain ⟨hn, hd⟩ := hs
  rw [h, List.length_cons] at hn
  have h1 : noticesBounded (bump (.noticesSent n.kind) { s with lu.notices := rest, responseWire := noticeBytes n }) :=
    noticesBounded_bump _ ⟨(Nat.le_succ _).trans hn, hd⟩
  unfold sendNotice postDeferred
  split
  · exact h1
  · rename_i k ks hks
    refine noticesBounded_post k ⟨h1.1, ?_⟩
    have hnd := h1.2
    rw [hks] at hnd
    exact (List.nodup_cons.1 hnd).2

theorem noticesBounded_tabular : Tabular noticesBounded :=
  tabular_of_link (fun h _ h2 h3 => noticesBounded_of_same h h2 h3) noticesBounded_bump noticesBounded_occur
    noticesBounded_sendNotice (fun _ _ h => h) (by unfold noticesBounded; decide)

/-! ### Streams and candidates -/

theorem streamsWf_tabular : Tabular fun s => streamsWf s.streams :=
  have hbump : ∀ {s : State} (k : Counter), streamsWf s.streams → streamsWf (bump k s).streams := fun k h => by
    rw [bump_streams]; exact h
  tabular_of_link_and_streams (fun h _ _ _ h1 => by rw [h1]; exact h) hbump
    (occur_keeps (P := fun s => streamsWf s.streams) (fun k _ => hbump k) fun _ h => h)
    (fun n rest _ => sendNotice_keeps (P := fun s => streamsWf s.streams) (fun k _ => hbump k) (fun _ h => h) (fun _ h => h) n rest)
    (fun start length h => consultStreams_wf start length h)
    (fun h => by
      unfold clearStreams
      split
      · exact streamsWf_initial
      · exact h)
    (fun _ hv _ => hv) (fun _ _ h => h) streamsWf_initial

theorem candidatesWf_filter {cs : List Candidate} (p : Candidate → Bool) (h : candidatesWf cs) :
    candidatesWf (cs.filter p) := by
  obtain ⟨hp, hs, hw⟩ := h
  exact ⟨hp.sublist (List.filter_sublist.map _), hs.sublist (List.filter_sublist.map _),
    fun c hc => hw c (List.mem_filter.1 hc).1⟩

theorem candidatesWf_mapHeat {cs : List Candidate} (f : Candidate → HeatRec) (h : candidatesWf cs) :
    candidatesWf (cs.map fun c => { c with heat := f c }) := by
  obtain ⟨hp, hs, hw⟩ := h
  refine ⟨?_, ?_, ?_⟩
  · rw [List.map_map]; exact hp
  · rw [List.map_map]; exact hs
  · simpa using hw

theorem candidatesWf_tabular : Tabular fun s => candidatesWf s.hu.candidates :=
  have hbump : ∀ {s : State} (k : Counter), candidatesWf s.hu.candidates → candidatesWf (bump k s).hu.candidates :=
    fun k h => by rw [bump_hu]; exact h
  { same := fun h _ _ _ h1 _ => by rw [h1]; exact h
    bump := hbump
    occur := fun k a h => occur_keeps (P := fun s => candidatesWf s.hu.candidates) (fun k _ => hbump k) (fun _ h => h) k a h
    sendNotice := fun n rest _ h =>
      sendNotice_keeps (P := fun s => candidatesWf s.hu.candidates) (fun k _ => hbump k) (fun _ h => h) (fun _ h => h) n rest h
    consult := fun _ _ h => by unfold consultStreams; split <;> exact h
    clearStreams := fun h => by unfold clearStreams; split <;> exact h
    takeCandidate := fun g h => by
      unfold Machine.takeCandidate
      split
      · exact candidatesWf_filter _ h
      · exact h
    heatAbsent := fun g c h => heatAbsent_candidatesWf h
    discardMapped := fun h => by
      unfold discardMapped
      split
      · exact candidatesWf_filter _ h
      · exact h
    clampCandidates := fun h => by
      unfold clampCandidates
      split
      · exact candidatesWf_mapHeat _ h
      · exact h
    setCandidates := fun _ hcs _ => hcs
    setStreams := fun _ _ h => h
    setStats := fun _ _ h => h
    reset := candidatesWf_nil }

end Sys2Proof.Machine

/-! ## The ranges of the parameters -/

namespace Sys2Proof.Machine

/-- Every parameter but DirtyLow lies in its range under a FrameCount (R191). -/
structure ParamsFit (n : Nat) (p : Params) : Prop where
  admitThreshold : 1 ≤ p.admitThreshold ∧ p.admitThreshold ≤ 65535
  hysteresis : p.hysteresis ≤ 65535
  scanWindow : 1 ≤ p.scanWindow ∧ p.scanWindow ≤ 16
  freeReserve : p.freeReserve ≤ n
  dirtyHigh : p.dirtyHigh ≤ n
  epochSpan : 1 ≤ p.epochSpan ∧ p.epochSpan ≤ 65535
  streamThreshold : 256 ≤ p.streamThreshold ∧ p.streamThreshold ≤ 65535
  latencyLimit : 10 ≤ p.latencyLimit ∧ p.latencyLimit ≤ 5000
  degradeThreshold : 8 ≤ p.degradeThreshold ∧ p.degradeThreshold ≤ 63
  quietTime : 100 ≤ p.quietTime ∧ p.quietTime ≤ 60000
  noticeSkip : ∀ k : Fin 8, p.noticeSkip[k] ≤ 15

/-- The parameters of a configured part: DirtyLow lies below DirtyHigh too (R191). -/
structure ParamsReady (n : Nat) (p : Params) : Prop extends ParamsFit n p where
  frames : 1024 ≤ n
  dirtyHighPos : 1 ≤ p.dirtyHigh
  dirtyLow : p.dirtyLow < p.dirtyHigh

theorem paramsInRange_iff (s : State) : paramsInRange s ↔ ParamsFit s.lu.frameCount s.params
    ∧ (s.lu.mode ≠ .unconfigured → 1 ≤ s.params.dirtyHigh ∧ s.params.dirtyLow < s.params.dirtyHigh) := by
  constructor
  · rintro ⟨h1, h2, h3, h4, h5, h6, h7, h8, h9, h10, h11, h12, h13, h14, h15, h16, h17, h18, h19⟩
    exact ⟨⟨⟨h1, h2⟩, h3, ⟨h4, h5⟩, h6, h7, ⟨h9, h10⟩, ⟨h11, h12⟩, ⟨h13, h14⟩, ⟨h15, h16⟩, ⟨h17, h18⟩, h19⟩, h8⟩
  · rintro ⟨⟨⟨h1, h2⟩, h3, ⟨h4, h5⟩, h6, h7, ⟨h9, h10⟩, ⟨h11, h12⟩, ⟨h13, h14⟩, ⟨h15, h16⟩, ⟨h17, h18⟩, h19⟩, h8⟩
    exact ⟨h1, h2, h3, h4, h5, h6, h7, h8, h9, h10, h11, h12, h13, h14, h15, h16, h17, h18, h19⟩

theorem ParamsReady.inRange {s : State} (h : ParamsReady s.lu.frameCount s.params) : paramsInRange s :=
  (paramsInRange_iff s).2 ⟨h.toParamsFit, fun _ => ⟨h.dirtyHighPos, h.dirtyLow⟩⟩

/-- Outside UNCONFIGURED the parameters in range are those of a configured part. -/
theorem paramsReady_of_mode {s : State} (hc : modeConsistent s) (hp : paramsInRange s) (hm : s.lu.mode ≠ .unconfigured) :
    ParamsReady s.lu.frameCount s.params := by
  obtain ⟨hfit, hdirty⟩ := (paramsInRange_iff s).1 hp
  exact ⟨hfit, hc.2 hm, (hdirty hm).1, (hdirty hm).2⟩

theorem paramsInRange_of_same {s t : State} (hp : paramsInRange s) (h1 : t.params = s.params)
    (h2 : t.lu.frameCount = s.lu.frameCount) (h3 : t.lu.mode ≠ .unconfigured → s.lu.mode ≠ .unconfigured) :
    paramsInRange t := by
  obtain ⟨hfit, hdirty⟩ := (paramsInRange_iff s).1 hp
  rw [paramsInRange_iff, h1, h2]
  exact ⟨hfit, fun h => hdirty (h3 h)⟩

/-! ### Storing and deriving -/

theorem clampTo_range {lo hi : Nat} (h : lo ≤ hi) (v : Nat) : lo ≤ clampTo lo hi v ∧ clampTo lo hi v ≤ hi := by
  unfold clampTo
  omega

theorem ParamsReady.storeSkip {n : Nat} {p : Params} (h : ParamsReady n p) (k : Fin 8) (v : Nat) :
    ParamsReady n (storeSkip k v p).params := by
  refine { h with noticeSkip := fun j => ?_ }
  show (p.noticeSkip.set k _)[j.val] ≤ 15
  rw [Vector.getElem_set]
  split
  · exact (clampTo_range (by omega) v).2
  · exact h.noticeSkip j

theorem ParamsReady.storeDirtyHigh {n : Nat} {p : Params} (h : ParamsReady n p) (v : Nat) :
    ParamsReady n (storeDirtyHigh n v p).params := by
  have hframes := h.frames
  obtain ⟨hlo, hhi⟩ := clampTo_range (lo := 1) (hi := n) (by omega) v
  unfold Machine.storeDirtyHigh
  dsimp only
  split
  · exact { h with dirtyHigh := hhi, dirtyHighPos := hlo, dirtyLow := Nat.sub_lt hlo Nat.one_pos }
  · split <;> exact { h with dirtyHigh := hhi, dirtyHighPos := hlo, dirtyLow := by dsimp only; omega }

theorem ParamsReady.storeDirtyLow {n : Nat} {p : Params} (h : ParamsReady n p) (v : Nat) :
    ParamsReady n { p with dirtyLow := clampTo 0 (p.dirtyHigh - 1) v } := by
  have hpos := h.dirtyHighPos
  have hle := (clampTo_range (Nat.zero_le (p.dirtyHigh - 1)) v).2
  exact { h with dirtyLow := by dsimp only; omega }

/-- What a Set Parameter stores keeps the parameters of a configured part in range (R191). -/
theorem ParamsReady.store {n id v : Nat} {p : Params} {r : Stored} (h : ParamsReady n p)
    (hr : storeParameter n id v p = some r) : ParamsReady n r.params := by
  unfold storeParameter at hr
  split at hr <;> cases hr
  case h_1 => exact { h with admitThreshold := clampTo_range (by omega) v }
  case h_2 => exact { h with hysteresis := (clampTo_range (by omega) v).2 }
  case h_3 => exact { h with scanWindow := clampTo_range (by omega) v }
  case h_4 => exact { h with freeReserve := (clampTo_range (Nat.zero_le n) v).2 }
  case h_5 => exact h.storeDirtyHigh v
  case h_6 => exact h.storeDirtyLow v
  case h_7 => unfold storeEpochSource; split <;> exact { h with }
  case h_8 => exact { h with epochSpan := clampTo_range (by omega) v }
  case h_9 => unfold storeDecayMode; split <;> exact { h with }
  case h_10 => exact { h with streamThreshold := clampTo_range (by omega) v }
  case h_11 => exact { h with }
  case h_12 => exact { h with latencyLimit := clampTo_range (by omega) v }
  case h_13 => exact { h with degradeThreshold := clampTo_range (by omega) v }
  case h_14 => exact { h with }
  case h_15 => exact { h with quietTime := clampTo_range (by omega) v }
  case h_24 => exact { h with }
  all_goals exact h.storeSkip _ v

theorem ParamsReady.loadParameters {n : Nat} (vs : List Nat) {id : Nat} {p : Params} (h : ParamsReady n p) :
    ParamsReady n (loadParameters n id vs p) := by
  induction vs generalizing id p with
  | nil => exact h
  | cons v vs ih =>
    refine ih ?_
    cases hr : storeParameter n id v p with
    | none => exact h
    | some r => exact h.store hr

theorem ParamsFit.derive {m n : Nat} {p : Params} (h : ParamsFit m p) (hn : 1024 ≤ n) : ParamsReady n (p.derive n) where
  toParamsFit := { h with
    freeReserve := by dsimp only [Params.derive]; omega
    dirtyHigh := by dsimp only [Params.derive]; omega }
  frames := hn
  dirtyHighPos := by dsimp only [Params.derive]; omega
  dirtyLow := by dsimp only [Params.derive]; omega

theorem paramsFit_defaults : ParamsFit 0 Params.defaults := by
  constructor <;> decide

/-! ### What leaves the parameters and FrameCount alone -/

/-- The parameters and FrameCount. -/
def settings (s : State) : Params × Nat := (s.params, s.lu.frameCount)

theorem settings_of_calm {s t : State} (h : calmPart t = calmPart s) : settings t = settings s :=
  congrArg (fun c => (c.base.params, c.base.frameCount)) h

theorem settings_init {s : State} {c : Fin 6} (hc : c ≠ 3) : settings (initComponent c s) = settings s := by
  match c, hc with
  | 0, _ | 1, _ | 2, _ | 4, _ | 5, _ => rfl
  | 3, h => exact absurd rfl h

theorem settings_loadMap (m : SavedMap) (w : BitVec 48) (s : State) : settings (loadMap m w s) = settings s := by
  have h (fs : List Nat) (s : State) : settings (askTrims fs s) = settings s := by
    unfold askTrims
    induction fs generalizing s with
    | nil => rfl
    | cons f fs ih => exact (ih _).trans (settings_of_calm (askTrim_calm f s))
  exact (h _ _).trans rfl

theorem settings_finishRebuild (p : RebuildProgress) (s : State) : settings (finishRebuild p s) = settings s := by
  have h : settings (reconcile (touch 0 (loadMap (assembledMap p s) (rebuiltSeq p s) s))) = settings s :=
    (settings_of_calm (reconcile_calm _)).trans (settings_loadMap _ _ _)
  exact h

theorem settings_classFrame (f : Nat) (ok : Bool) (l : FrameLabel) (p : RebuildProgress) (s : State) :
    settings (classFrame f ok l p s).2 = settings s := by
  unfold classFrame classLabel
  split
  · rfl
  · split
    · exact settings_of_calm (bump_calm _ _)
    · split
      · rfl
      · dsimp only
        split <;> rfl

theorem settings_labelResult (f : Nat) (ok : Bool) (l : FrameLabel) (s : State) :
    settings (labelResult f ok l s) = settings s := by
  unfold labelResult
  split
  · dsimp only
    unfold rebuildTest
    split
    · exact (settings_finishRebuild _ _).trans (settings_classFrame _ _ _ _ _)
    · exact (settings_classFrame f ok l _ s)
  all_goals rfl

theorem settings_startLabelReads (s : State) : settings (startLabelReads s) = settings s := by
  have h1 : settings (initComponent 0 { s with cu.rebuildTable := [] }) = settings s := settings_init (by decide)
  unfold startLabelReads
  dsimp only
  split
  · exact (settings_finishRebuild _ _).trans h1
  · exact (settings_of_calm (placeLabelReads_calm _)).trans h1

theorem settings_sendNotice (n : Notice) (rest : List Notice) (s : State) : settings (sendNotice n rest s) = settings s :=
  (settings_of_calm ((postDeferred_calm _).trans (bump_calm _ _))).trans rfl

section
variable (R : Params × Nat → Prop)

theorem settings_core : Core fun s => R (settings s) where
  touch := fun _ h => h
  bump := fun k _ h => (congrArg R (settings_of_calm (bump_calm k _))).mpr h
  occur := fun k a _ _ h => (congrArg R (settings_of_calm (occur_calm k a _))).mpr h
  monitor := fun _ _ h => h
  tracker := fun _ _ h => h
  held := fun _ h => h
  operation := fun _ _ h => h
  flash := fun _ _ h => h
  platter := fun _ _ h => h
  reissued := fun _ _ _ _ h => h
  moves := fun _ h => h
  map := fun _ h => h
  takeCandidate := fun g h => (congrArg R (settings_of_calm (takeCandidate_calm g _))).mpr h

theorem settings_whole : Whole fun s => R (settings s) where
  toMapped := (settings_core R).mapped
  steady := fun h ht _ => by
    have : settings _ = settings _ := congrArg (fun c => (c.params, c.frameCount)) ht
    rwa [this]
  degraded := fun h => (congrArg R (settings_of_calm (bump_calm _ _))).mpr h
  platterNotice := fun k a h => (congrArg R (settings_of_calm (occur_calm k a _))).mpr h
  plain := fun h ht => by
    have : settings _ = settings _ := congrArg (fun c => (c.params, c.frameCount)) ht
    rwa [this]
  settle := fun _ _ h => h
  consult := fun a b h => (congrArg R (settings_of_calm (consultStreams_calm a b _))).mpr h
  clearStreams := fun h => (congrArg R (settings_of_calm (clearStreams_calm _))).mpr h
  sendNotice := fun n rest _ h => (congrArg R (settings_sendNotice n rest _)).mpr h
  heatUpdate := fun a b c h => (congrArg R (settings_of_calm (heatUpdate_calm a b c _))).mpr h
  readHit := fun _ e _ h => (congrArg R (settings_of_calm (readHit_calm e _))).mpr h
  absorbRequest := (settings_core R).absorbRequest
  absorbOk := (settings_core R).absorbOk
  absorbError := (settings_core R).absorbError
  absorbWithdrawn := (settings_core R).absorbWithdrawn
  readError := (settings_core R).readError
  trimEffect := (settings_core R).trimEffect
  evict := (settings_core R).evict
  frameDispatched := (settings_core R).frameDispatched
  frameReturned := (settings_core R).frameReturned
  trimResult := (settings_core R).trimResult
  takeWriteSeq := (settings_core R).takeWriteSeq
  labelResult := fun f ok l h => (congrArg R (settings_labelResult f ok l _)).mpr h
  startLabelReads := fun _ h => (congrArg R (settings_startLabelReads _)).mpr h

end

/-! ### Every command keeps the parameters in range -/

/-- The parameters of a configured part. -/
def settingsReady (x : Params × Nat) : Prop := ParamsReady x.2 x.1

theorem settingsReady_load {s t : State} {c : Fin 6} {data body : List Byte} (hl : loadBody c data body s = some t)
    (h : settingsReady (settings s)) : settingsReady (settings t) := by
  unfold loadBody at hl
  split at hl
  · unfold loadC0 at hl
    split at hl
    · split at hl
      · cases hl
        rw [settings_loadMap]
        exact h
      · cases hl
    · cases hl
  · unfold loadC1 at hl
    dsimp only at hl
    split at hl
    · cases hl
      exact h
    · cases hl
  · cases hl
    exact h
  · cases hl
    exact ParamsReady.loadParameters _ h
  · cases hl
    generalize renumberRanks _ = v
    exact h
  · cases hl
    generalize Vector.ofFn _ = v
    exact h

theorem settingsReady_restoring : Restoring fun s => settingsReady (settings s) where
  toWhole := settings_whole settingsReady
  writeSeq := fun _ h => h
  load := fun _ _ _ hl h => settingsReady_load hl h
  init := fun {s} c h => by
    by_cases hc : c = 3
    · subst hc
      exact (paramsFit_defaults).derive (ParamsReady.frames h)
    · rw [settings_init hc]
      exact h
  reconcile := fun h => (congrArg settingsReady (settings_of_calm (reconcile_calm _))).mpr h

theorem exec_routine_settings {c : Instr} {s t : State} (he : exec c s = .next t) (hr : Routine c s) :
    settings t = settings s :=
  (settings_whole fun x => x = settings s).exec_routine he hr rfl

/-- A control transaction waits, is refused, or is accepted with every test passed. -/
theorem transaction_next {s t : State} {c : Instr} {k : TxnKind} {h : TxnHead} {check : State → Option Reason}
    {accept : State → State} (he : transaction c k h check accept s = .next t) :
    (settings t = settings s ∧ t.lu.mode = s.lu.mode) ∨ (txnRefusal k h check s = none ∧ t = accept s) := by
  cases he
  unfold onLink transact
  split
  · split
    · rename_i r _
      have hset : settings (bump .transactionsRefused s) = settings s := settings_of_calm (bump_calm _ _)
      have hmode : (bump .transactionsRefused s).lu.mode = s.lu.mode := by rw [bump_lu]
      exact .inl ⟨hset, hmode⟩
    · exact .inr ⟨‹_›, rfl⟩
  · exact .inl ⟨rfl, rfl⟩

theorem modeAllows_of_txnRefusal {k : TxnKind} {h : TxnHead} {check : State → Option Reason} {s : State}
    (hr : txnRefusal k h check s = none) : modeAllows k s.lu.mode = true := by
  unfold txnRefusal at hr
  split at hr
  · cases hr
  · split at hr
    · cases hr
    · split at hr
      · cases hr
      · simpa using ‹¬(!modeAllows k s.lu.mode) = true›

theorem unconfigured_of_routine {c : Instr} {s t : State} (hc : modeConsistent s) (he : exec c s = .next t)
    (hr : Routine c s) (hm : s.lu.mode = .unconfigured) : t.lu.mode = .unconfigured := by
  rcases (exec_lawful he).mode hc with h | h
  · exact h.trans hm
  · rw [hm] at h
    cases c <;> simp [modeChange, Routine] at h hr

theorem opKind_of_unconfigured {s : State} (hc : modeConsistent s) (hm : s.lu.mode = .unconfigured) :
    opKind s.cu.operation ≠ 4 := by
  intro h4
  have h := hc.1
  rw [hm] at h
  cases ho : s.cu.operation <;> simp_all [opKind, modeFits]

theorem exec_paramsInRange {c : Instr} {s t : State} (he : exec c s = .next t) (hc : modeConsistent s)
    (hp : paramsInRange s) : paramsInRange t := by
  have hreset : ∀ u : State, settings u = settings State.reset → u.lu.mode = .unconfigured → paramsInRange u := by
    intro u hu hm
    exact paramsInRange_of_same Tests.witness_paramsInRange.2 (congrArg Prod.fst hu) (congrArg Prod.snd hu)
      fun h => absurd hm h
  have hkept : settings t = settings s ∧ t.lu.mode = s.lu.mode → paramsInRange t := fun h =>
    paramsInRange_of_same hp (congrArg Prod.fst h.1) (congrArg Prod.snd h.1) fun hm => h.2 ▸ hm
  by_cases hr : Routine c s
  · have hset := exec_routine_settings he hr
    exact paramsInRange_of_same hp (congrArg Prod.fst hset) (congrArg Prod.snd hset)
      fun hm hu => hm (unconfigured_of_routine hc he hr hu)
  · cases c
    case powerOnReset => cases he; exact hreset _ rfl rfl
    case configure h n p b =>
      rcases transaction_next he with h | ⟨hpass, rfl⟩
      · exact hkept h
      · have hfit := ((paramsInRange_iff s).1 hp).1
        exact ParamsReady.inRange (hfit.derive (clampTo_range (by omega) _).1)
    case setParameter h id v =>
      rcases transaction_next he with h | ⟨hpass, rfl⟩
      · exact hkept h
      · have hmode : s.lu.mode ≠ .unconfigured := fun hu => by
          have := modeAllows_of_txnRefusal hpass
          rw [hu] at this
          exact absurd this (by decide)
        refine ParamsReady.inRange ?_
        have hready := paramsReady_of_mode hc hp hmode
        split
        · rename_i r hstore
          have h1 : settingsReady (settings (touch 3 { s with params := r.params })) := hready.store hstore
          have hW := settings_whole settingsReady
          unfold reportDirtyBounds
          split
          · exact hW.engineEvent (hW.compareDirty h1)
          · exact h1
        · exact hready
    case initializeComponents h v =>
      rcases transaction_next he with h | ⟨hpass, rfl⟩
      · exact hkept h
      · have hmode : s.lu.mode ≠ .unconfigured := fun hu => by
          have := modeAllows_of_txnRefusal hpass
          rw [hu] at this
          exact absurd this (by decide)
        have hready : settingsReady (settings s) := paramsReady_of_mode hc hp hmode
        exact ParamsReady.inRange (settingsReady_restoring.reloading.reconcileIf _ (settingsReady_restoring.initAll _ hready))
    case resetEngineEnd =>
      cases he
      split
      · exact hreset _ rfl rfl
      · exact hp
    case orderResult p r =>
      have hmode : s.lu.mode ≠ .unconfigured := fun hu => hr (opKind_of_unconfigured hc hu)
      cases he
      exact ParamsReady.inRange (settingsReady_restoring.takeResult p r (paramsReady_of_mode hc hp hmode))
    all_goals exact absurd trivial hr

/-- Settles O58: the counters and the notice queue by what every command keeps, the parameters command by command. -/
theorem boundsStay : Obligations.BoundsStay := by
  intro s t h
  refine ⟨countersBounded_tabular.loading.step h, noticesBounded_tabular.loading.step h, fun hc hp => ?_⟩
  obtain rfl | ⟨c, q, u, rest, v, hv, rfl⟩ := step_cases h
  · exact hp
  · have hin : paramsInRange v := exec_paramsInRange hv hc hp
    exact hin

end Sys2Proof.Machine

/-! ## The Segment Map as a value: what keeps it exact -/

namespace Sys2Proof.Machine

/-- The state of a frame in a Frame Table. -/
def stateAt (f : Nat) (fs : List Frame) : Option FrameState := (fs[f]?).map Frame.state

/-- The entry of a segment among entries. -/
def entryAt (g : Nat) (es : List Entry) : Option Entry := es.find? fun e => e.segment == g

/-- The map under a FrameCount is exact: `framesExact` and `listsExact`, spoken of the map alone. -/
structure SmExact (n : Nat) (m : SegmentMap) : Prop where
  frames : m.frames.length = n
  freeNodup : m.freeList.Nodup
  free : ∀ f, f ∈ m.freeList ↔ stateAt f m.frames = some .free
  boundNodup : (m.entries.map Entry.frame).Nodup
  bound : ∀ f, stateAt f m.frames = some .bound ↔ ∃ e ∈ m.entries, e.frame = f
  ascending : (m.entries.map Entry.segment).Pairwise (· < ·)
  reclaimNodup : m.reclaim.Nodup
  reclaim : ∀ g, g ∈ m.reclaim ↔ ∃ e ∈ m.entries, e.segment = g ∧ e.state = .clean
  dirtyNodup : m.dirty.Nodup
  dirty : ∀ g, g ∈ m.dirty ↔ ∃ e ∈ m.entries, e.segment = g ∧ e.state = .dirty
  dirtyCount : m.dirtyCount = m.entries.countP fun e => countsDirty e.state

theorem smExact_iff (s : State) : SmExact s.lu.frameCount s.sm ↔ framesExact s ∧ listsExact s := by
  constructor
  · rintro ⟨h1, h2, h3, h4, h5, h6, h7, h8, h9, h10, h11⟩
    exact ⟨⟨h1, h2, h3, h4, h5⟩, h6, h7, h8, h9, h10, h11⟩
  · rintro ⟨⟨h1, h2, h3, h4, h5⟩, h6, h7, h8, h9, h10, h11⟩
    exact ⟨h1, h2, h3, h4, h5, h6, h7, h8, h9, h10, h11⟩

/-! ### Frames -/

theorem stateAt_withFrameState (k f : Nat) (st : FrameState) (fs : List Frame) :
    stateAt k (withFrameState f st fs) = if f = k ∧ (stateAt k fs).isSome then some st else stateAt k fs := by
  unfold stateAt withFrameState
  rw [List.getElem?_modify]
  cases fs[k]? with
  | none => simp
  | some x => by_cases h : f = k <;> simp [h]

theorem stateAt_withInFlight (k f : Nat) (g : Nat → Nat) (fs : List Frame) :
    stateAt k (withInFlight f g fs) = stateAt k fs := by
  unfold stateAt withInFlight
  rw [List.getElem?_modify]
  cases fs[k]? with
  | none => simp
  | some x => by_cases h : f = k <;> simp [h]

theorem length_withFrameState (f : Nat) (st : FrameState) (fs : List Frame) :
    (withFrameState f st fs).length = fs.length := List.length_modify ..

theorem length_withInFlight (f : Nat) (g : Nat → Nat) (fs : List Frame) :
    (withInFlight f g fs).length = fs.length := List.length_modify ..

/-- A frame known to stand in a state takes another. -/
theorem stateAt_change {f : Nat} {st st' : FrameState} {fs : List Frame} (h : stateAt f fs = some st') (k : Nat) :
    stateAt k (withFrameState f st fs) = if f = k then some st else stateAt k fs := by
  rw [stateAt_withFrameState]
  by_cases hk : f = k
  · subst hk
    simp [h]
  · simp [hk]

/-! ### Insertion -/

theorem insertEntry_perm (e : Entry) (es : List Entry) : (insertEntry e es).Perm (e :: es) := by
  induction es with
  | nil => exact .refl _
  | cons d ds ih =>
    unfold insertEntry
    split
    · exact .refl _
    · exact (ih.cons d).trans (.swap e d ds)

theorem insertEntry_ascending {e : Entry} {es : List Entry} (hes : (es.map Entry.segment).Pairwise (· < ·))
    (hne : ∀ x ∈ es, x.segment ≠ e.segment) : ((insertEntry e es).map Entry.segment).Pairwise (· < ·) := by
  induction es with
  | nil => simp [insertEntry]
  | cons d ds ih =>
    obtain ⟨hd, hds⟩ := List.pairwise_cons.1 hes
    unfold insertEntry
    split
    · rename_i hlt
      refine List.pairwise_cons.2 ⟨fun x hx => ?_, hes⟩
      rcases List.mem_cons.1 hx with rfl | hx
      · exact hlt
      · exact hlt.trans (hd x hx)
    · rename_i hge
      have hde := hne d List.mem_cons_self
      refine List.pairwise_cons.2 ⟨fun x hx => ?_, ih hds fun x hx => hne x (List.mem_cons_of_mem _ hx)⟩
      obtain ⟨y, hy, rfl⟩ := List.mem_map.1 hx
      rcases List.mem_cons.1 ((insertEntry_perm e ds).mem_iff.1 hy) with rfl | hy
      · omega
      · exact hd _ (List.mem_map_of_mem hy)

namespace SmExact

variable {n : Nat} {m : SegmentMap} (h : SmExact n m)
include h

/-! ### Entries that keep their segment, frame and state -/

theorem map {f : Entry → Entry} (hf : ∀ e, (f e).segment = e.segment ∧ (f e).frame = e.frame ∧ (f e).state = e.state) :
    SmExact n { m with entries := m.entries.map f } := by
  have hex : ∀ (p : Entry → Prop) (q : Entry → Prop), (∀ e, q (f e) ↔ p e) →
      ((∃ e ∈ m.entries.map f, q e) ↔ ∃ e ∈ m.entries, p e) := by
    intro p q hpq
    simp only [List.mem_map]
    constructor
    · rintro ⟨_, ⟨e, he, rfl⟩, hq⟩
      exact ⟨e, he, (hpq e).1 hq⟩
    · rintro ⟨e, he, hp⟩
      exact ⟨f e, ⟨e, he, rfl⟩, (hpq e).2 hp⟩
  have hframe : (m.entries.map f).map Entry.frame = m.entries.map Entry.frame := by
    rw [List.map_map]
    exact List.map_congr_left fun e _ => (hf e).2.1
  have hseg : (m.entries.map f).map Entry.segment = m.entries.map Entry.segment := by
    rw [List.map_map]
    exact List.map_congr_left fun e _ => (hf e).1
  constructor
  · exact h.frames
  · exact h.freeNodup
  · exact h.free
  · exact hframe ▸ h.boundNodup
  · intro k
    rw [hex (fun e => e.frame = k) (fun e => e.frame = k) fun e => by rw [(hf e).2.1]]
    exact h.bound k
  · exact hseg ▸ h.ascending
  · exact h.reclaimNodup
  · intro g
    rw [hex (fun e => e.segment = g ∧ e.state = .clean) (fun e => e.segment = g ∧ e.state = .clean)
      fun e => by rw [(hf e).1, (hf e).2.2]]
    exact h.reclaim g
  · exact h.dirtyNodup
  · intro g
    rw [hex (fun e => e.segment = g ∧ e.state = .dirty) (fun e => e.segment = g ∧ e.state = .dirty)
      fun e => by rw [(hf e).1, (hf e).2.2]]
    exact h.dirty g
  · rw [List.countP_map]
    exact h.dirtyCount.trans (List.countP_congr fun e _ => by simp [(hf e).2.2])

theorem modify {g : Nat} {f : Entry → Entry}
    (hf : ∀ e, (f e).segment = e.segment ∧ (f e).frame = e.frame ∧ (f e).state = e.state) :
    SmExact n { m with entries := mapEntry g f m.entries } := by
  refine h.map fun e => ?_
  split
  · exact hf e
  · exact ⟨rfl, rfl, rfl⟩

/-! ### The entry of a segment, with the others before and behind it -/

theorem split {g : Nat} {e : Entry} (he : entryAt g m.entries = some e) :
    ∃ as bs, m.entries = as ++ e :: bs ∧ e.segment = g ∧ (∀ x ∈ as, x.segment ≠ g) ∧ ∀ x ∈ bs, x.segment ≠ g := by
  have hg : e.segment = g := by simpa using List.find?_some he
  obtain ⟨as, bs, hes⟩ := List.append_of_mem (List.mem_of_find?_eq_some he)
  have hasc := h.ascending
  rw [hes, List.map_append, List.map_cons, List.pairwise_append] at hasc
  obtain ⟨-, hbs, has⟩ := hasc
  refine ⟨as, bs, hes, hg, fun x hx hxg => ?_, fun x hx hxg => ?_⟩
  · have := has x.segment (List.mem_map_of_mem hx) e.segment List.mem_cons_self
    omega
  · have := List.rel_of_pairwise_cons hbs (List.mem_map_of_mem hx)
    omega

theorem unique {g : Nat} {e y : Entry} (he : entryAt g m.entries = some e) (hy : y ∈ m.entries) (hyg : y.segment = g) :
    y = e := by
  obtain ⟨as, bs, hes, -, has, hbs⟩ := h.split he
  rw [hes, List.mem_append, List.mem_cons] at hy
  obtain hy | rfl | hy := hy
  · exact absurd hyg (has y hy)
  · rfl
  · exact absurd hyg (hbs y hy)

theorem mem_reclaim {g : Nat} {e : Entry} (he : entryAt g m.entries = some e) : g ∈ m.reclaim ↔ e.state = .clean := by
  have hg : e.segment = g := by simpa using List.find?_some he
  rw [h.reclaim]
  exact ⟨fun ⟨y, hy, hyg, hst⟩ => h.unique he hy hyg ▸ hst, fun hst => ⟨e, List.mem_of_find?_eq_some he, hg, hst⟩⟩

theorem mem_dirty {g : Nat} {e : Entry} (he : entryAt g m.entries = some e) : g ∈ m.dirty ↔ e.state = .dirty := by
  have hg : e.segment = g := by simpa using List.find?_some he
  rw [h.dirty]
  exact ⟨fun ⟨y, hy, hyg, hst⟩ => h.unique he hy hyg ▸ hst, fun hst => ⟨e, List.mem_of_find?_eq_some he, hg, hst⟩⟩

/-- The entry of a segment takes a state, and the lists and the dirty count follow. -/
theorem change {g : Nat} {e : Entry} {f : Entry → Entry} {st : EntryState} {r d : List Nat} {c : Nat}
    (he : entryAt g m.entries = some e)
    (hf : (f e).segment = e.segment ∧ (f e).frame = e.frame ∧ (f e).state = st)
    (hr : r.Nodup) (hrm : ∀ x, x ∈ r ↔ (x ∈ m.reclaim ∧ x ≠ g) ∨ (x = g ∧ st = .clean))
    (hd : d.Nodup) (hdm : ∀ x, x ∈ d ↔ (x ∈ m.dirty ∧ x ≠ g) ∨ (x = g ∧ st = .dirty))
    (hc : c + (countsDirty e.state).toNat = m.dirtyCount + (countsDirty st).toNat) :
    SmExact n { m with entries := mapEntry g f m.entries, reclaim := r, dirty := d, dirtyCount := c } := by
  obtain ⟨as, bs, hes, hg, has, hbs⟩ := h.split he
  obtain ⟨hfs, hff, hfst⟩ := hf
  have hmap : mapEntry g f m.entries = as ++ f e :: bs := by
    have hid : ∀ l : List Entry, (∀ x ∈ l, x.segment ≠ g) → mapEntry g f l = l := fun l hl => by
      refine (List.map_congr_left fun x hx => ?_).trans (List.map_id l)
      simp [hl x hx]
    have happ : mapEntry g f (as ++ e :: bs) = mapEntry g f as ++ f e :: mapEntry g f bs := by
      simp [mapEntry, hg]
    rw [hes, happ, hid as has, hid bs hbs]
  obtain ⟨hframes, hfreeN, hfree, hboundN, hbound, hasc, -, hrec, -, hdirty, hcount⟩ := h
  rw [hes] at hboundN hbound hasc hrec hdirty hcount
  simp only [List.map_append, List.map_cons, List.mem_append, List.mem_cons, List.countP_append, List.countP_cons]
    at hboundN hbound hasc hrec hdirty hcount
  have hothers : ∀ x ∈ as ++ bs, x.segment ≠ g := by simpa [or_imp, forall_and] using ⟨has, hbs⟩
  have hlist : ∀ (st' : EntryState) (x : Nat), (∃ y, (y ∈ as ∨ y = f e ∨ y ∈ bs) ∧ y.segment = x ∧ y.state = st')
      ↔ ((∃ y, (y ∈ as ∨ y = e ∨ y ∈ bs) ∧ y.segment = x ∧ y.state = st') ∧ x ≠ g) ∨ (x = g ∧ st = st') := by
    intro st' x
    constructor
    · rintro ⟨y, hy | rfl | hy, rfl, hyst⟩
      · exact .inl ⟨⟨y, .inl hy, rfl, hyst⟩, has y hy⟩
      · exact .inr ⟨hfs.trans hg, hfst.symm.trans hyst⟩
      · exact .inl ⟨⟨y, .inr (.inr hy), rfl, hyst⟩, hbs y hy⟩
    · rintro (⟨⟨y, hy | rfl | hy, rfl, hyst⟩, hne⟩ | ⟨rfl, rfl⟩)
      · exact ⟨y, .inl hy, rfl, hyst⟩
      · exact absurd hg hne
      · exact ⟨y, .inr (.inr hy), rfl, hyst⟩
      · exact ⟨f e, .inr (.inl rfl), hfs.trans hg, hfst⟩
  constructor
  · exact hframes
  · exact hfreeN
  · exact hfree
  · simpa [hmap, hff] using hboundN
  · intro k
    refine (hbound k).trans ?_
    simp only [hmap, List.mem_append, List.mem_cons]
    constructor
    · rintro ⟨y, hy | rfl | hy, rfl⟩
      · exact ⟨y, .inl hy, rfl⟩
      · exact ⟨f y, .inr (.inl rfl), hff⟩
      · exact ⟨y, .inr (.inr hy), rfl⟩
    · rintro ⟨y, hy | rfl | hy, rfl⟩
      · exact ⟨y, .inl hy, rfl⟩
      · exact ⟨e, .inr (.inl rfl), hff.symm⟩
      · exact ⟨y, .inr (.inr hy), rfl⟩
  · simpa [hmap, hfs] using hasc
  · exact hr
  · intro x
    rw [hrm, hrec]
    simp only [hmap, List.mem_append, List.mem_cons]
    exact (hlist .clean x).symm
  · exact hd
  · intro x
    rw [hdm, hdirty]
    simp only [hmap, List.mem_append, List.mem_cons]
    exact (hlist .dirty x).symm
  · simp only [hmap, List.countP_append, List.countP_cons, hfst]
    cases h1 : countsDirty e.state <;> cases h2 : countsDirty st <;> simp [h1, h2] at hc hcount ⊢ <;> omega

/-- The entry of a segment is removed and its frame leaves BOUND. -/
theorem remove {g : Nat} {e : Entry} {c : Nat} (he : entryAt g m.entries = some e)
    (hc : c + (countsDirty e.state).toNat = m.dirtyCount) :
    SmExact n { m with
      entries := m.entries.filter fun x => x.segment != g
      frames := withFrameState e.frame .trimming m.frames
      reclaim := m.reclaim.filter fun x => x != g
      dirty := m.dirty.filter fun x => x != g
      dirtyCount := c } := by
  obtain ⟨as, bs, hes, hg, has, hbs⟩ := h.split he
  have hfilter : (m.entries.filter fun x => x.segment != g) = as ++ bs := by
    rw [hes, List.filter_append, List.filter_cons_of_neg (by simp [hg])]
    rw [List.filter_eq_self.2 (by simpa using has), List.filter_eq_self.2 (by simpa using hbs)]
  obtain ⟨hframes, hfreeN, hfree, hboundN, hbound, hasc, hrecN, hrec, hdirtyN, hdirty, hcount⟩ := h
  have hwas : stateAt e.frame m.frames = some .bound := (hbound _).2 ⟨e, by simp [hes], rfl⟩
  rw [hes] at hboundN hbound hasc hrec hdirty hcount
  have hothers : ∀ x, x ∈ as ++ bs → x.frame ≠ e.frame := by
    intro x hx heq
    rw [List.map_append, List.map_cons, List.nodup_append] at hboundN
    obtain ⟨-, hcons, hdis⟩ := hboundN
    rcases List.mem_append.1 hx with hx | hx
    · exact hdis _ (List.mem_map_of_mem hx) _ List.mem_cons_self heq
    · exact (List.nodup_cons.1 hcons).1 (heq ▸ List.mem_map_of_mem hx)
  have hsub : (as ++ bs).Sublist (as ++ e :: bs) := List.Sublist.append_left (List.sublist_cons_self e bs) as
  have hlist : ∀ (st : EntryState) (x : Nat), (∃ y ∈ as ++ bs, y.segment = x ∧ y.state = st)
      ↔ (∃ y ∈ as ++ e :: bs, y.segment = x ∧ y.state = st) ∧ x ≠ g := by
    intro st x
    simp only [List.mem_append, List.mem_cons]
    constructor
    · rintro ⟨y, hy | hy, rfl, hyst⟩
      · exact ⟨⟨y, .inl hy, rfl, hyst⟩, has y hy⟩
      · exact ⟨⟨y, .inr (.inr hy), rfl, hyst⟩, hbs y hy⟩
    · rintro ⟨⟨y, hy | rfl | hy, rfl, hyst⟩, hne⟩
      · exact ⟨y, .inl hy, rfl, hyst⟩
      · exact absurd hg hne
      · exact ⟨y, .inr hy, rfl, hyst⟩
  constructor
  · exact (length_withFrameState _ _ _).trans hframes
  · exact hfreeN
  · intro k
    dsimp only
    rw [stateAt_change hwas, hfree]
    split
    · subst ‹e.frame = k›
      simp [hwas]
    · rfl
  · dsimp only
    rw [hfilter]
    exact hboundN.sublist (hsub.map _)
  · intro k
    dsimp only
    rw [stateAt_change hwas, hfilter]
    split
    · subst ‹e.frame = k›
      exact ⟨fun h => by simp at h, fun ⟨x, hx, hxe⟩ => absurd hxe (hothers x hx)⟩
    · rename_i hne
      rw [hbound]
      simp only [List.mem_append, List.mem_cons]
      constructor
      · rintro ⟨y, hy | rfl | hy, hyk⟩
        · exact ⟨y, .inl hy, hyk⟩
        · exact absurd hyk hne
        · exact ⟨y, .inr hy, hyk⟩
      · rintro ⟨y, hy | hy, hyk⟩
        · exact ⟨y, .inl hy, hyk⟩
        · exact ⟨y, .inr (.inr hy), hyk⟩
  · dsimp only
    rw [hfilter]
    exact hasc.sublist (hsub.map _)
  · exact hrecN.filter _
  · intro x
    dsimp only
    rw [hfilter, hlist .clean x, ← hrec]
    simp
  · exact hdirtyN.filter _
  · intro x
    dsimp only
    rw [hfilter, hlist .dirty x, ← hdirty]
    simp
  · dsimp only
    rw [hfilter]
    simp only [List.countP_append, List.countP_cons] at hcount ⊢
    cases h1 : countsDirty e.state <;> simp [h1] at hc hcount <;> omega

/-- An entry of a segment without one is created on the head of the Free Frame List, in a state of no list. -/
theorem create {g f : Nat} {rest : List Nat} {e : Entry} (hg : entryAt g m.entries = none) (hfree : m.freeList = f :: rest)
    (heg : e.segment = g) (hef : e.frame = f) (hst : e.state = .fresh ∨ e.state = .inbound) :
    SmExact n { m with
      entries := insertEntry e m.entries
      frames := withFrameState f .bound m.frames
      freeList := rest } := by
  have hnew : ∀ x ∈ m.entries, x.segment ≠ e.segment := by
    intro x hx
    rw [heg]
    simpa using List.find?_eq_none.1 hg x hx
  have hwas : stateAt f m.frames = some .free := (h.free f).1 (by simp [hfree])
  obtain ⟨hnotin, hrest⟩ := List.nodup_cons.1 (hfree ▸ h.freeNodup)
  have hperm := insertEntry_perm e m.entries
  have hnone : ∀ x ∈ m.entries, x.frame ≠ f := by
    intro x hx hxf
    have := (h.bound f).2 ⟨x, hx, hxf⟩
    rw [hwas] at this
    cases this
  have hlist : ∀ (st : EntryState) (x : Nat), st ≠ .fresh → st ≠ .inbound →
      ((∃ y ∈ insertEntry e m.entries, y.segment = x ∧ y.state = st) ↔ ∃ y ∈ m.entries, y.segment = x ∧ y.state = st) := by
    intro st x h1 h2
    simp only [hperm.mem_iff, List.mem_cons]
    constructor
    · rintro ⟨y, rfl | hy, hyx, hyst⟩
      · rcases hst with hst | hst
        · exact absurd (hyst.symm.trans hst) h1
        · exact absurd (hyst.symm.trans hst) h2
      · exact ⟨y, hy, hyx, hyst⟩
    · rintro ⟨y, hy, hyx, hyst⟩
      exact ⟨y, .inr hy, hyx, hyst⟩
  constructor
  · exact (length_withFrameState _ _ _).trans h.frames
  · exact hrest
  · intro k
    dsimp only
    rw [stateAt_change hwas]
    split
    · subst ‹f = k›
      simpa using hnotin
    · rename_i hne
      rw [← h.free, hfree, List.mem_cons]
      exact ⟨.inr, fun hk => hk.resolve_left fun hkf => hne hkf.symm⟩
  · refine (hperm.map _).nodup_iff.2 (List.nodup_cons.2 ⟨fun hin => ?_, h.boundNodup⟩)
    obtain ⟨y, hy, hye⟩ := List.mem_map.1 hin
    exact hnone y hy (hye.trans hef)
  · intro k
    dsimp only
    rw [stateAt_change hwas]
    simp only [hperm.mem_iff, List.mem_cons]
    split
    · subst ‹f = k›
      exact ⟨fun _ => ⟨e, .inl rfl, hef⟩, fun _ => rfl⟩
    · rename_i hne
      rw [h.bound]
      constructor
      · rintro ⟨y, hy, hyk⟩
        exact ⟨y, .inr hy, hyk⟩
      · rintro ⟨y, rfl | hy, hyk⟩
        · exact absurd (hef.symm.trans hyk) hne
        · exact ⟨y, hy, hyk⟩
  · exact insertEntry_ascending h.ascending hnew
  · exact h.reclaimNodup
  · intro x
    exact (h.reclaim x).trans (hlist .clean x (by decide) (by decide)).symm
  · exact h.dirtyNodup
  · intro x
    exact (h.dirty x).trans (hlist .dirty x (by decide) (by decide)).symm
  · dsimp only
    rw [hperm.countP_eq, List.countP_cons_of_neg]
    · exact h.dirtyCount
    · rcases hst with hst | hst <;> simp [hst, countsDirty]

/-- A TRIMMING frame becomes RETIRED, or FREE at the Free Frame List tail. -/
theorem trimmed {f : Nat} {st : FrameState} {l : List Nat} (hwas : stateAt f m.frames = some .trimming)
    (hst : (st = .free ∧ l = [f]) ∨ (st = .retired ∧ l = [])) :
    SmExact n { m with frames := withFrameState f st m.frames, freeList := m.freeList ++ l } := by
  have hnot : f ∉ m.freeList := fun hin => by
    have := (h.free f).1 hin
    rw [hwas] at this
    cases this
  have hkept : ∀ k, stateAt k (withFrameState f st m.frames) = some .bound ↔ stateAt k m.frames = some .bound := by
    intro k
    rw [stateAt_change hwas]
    split
    · subst ‹f = k›
      rcases hst with ⟨rfl, -⟩ | ⟨rfl, -⟩ <;> simp [hwas]
    · rfl
  constructor
  · exact (length_withFrameState _ _ _).trans h.frames
  · refine List.nodup_append.2 ⟨h.freeNodup, ?_, ?_⟩
    · rcases hst with ⟨-, rfl⟩ | ⟨-, rfl⟩ <;> simp
    · intro a ha b hb hab
      rcases hst with ⟨-, rfl⟩ | ⟨-, rfl⟩
      · exact hnot (List.mem_singleton.1 hb ▸ hab ▸ ha)
      · cases hb
  · intro k
    dsimp only
    rw [stateAt_change hwas, List.mem_append, h.free]
    split
    · subst ‹f = k›
      rcases hst with ⟨rfl, rfl⟩ | ⟨rfl, rfl⟩ <;> simp [hwas]
    · rename_i hne
      rcases hst with ⟨-, rfl⟩ | ⟨-, rfl⟩
      · simp [Ne.symm hne]
      · simp
  · exact h.boundNodup
  · intro k
    exact (hkept k).trans (h.bound k)
  · exact h.ascending
  · exact h.reclaimNodup
  · exact h.reclaim
  · exact h.dirtyNodup
  · exact h.dirty
  · exact h.dirtyCount

theorem inFlight (f : Nat) (g : Nat → Nat) : SmExact n { m with frames := withInFlight f g m.frames } := by
  constructor
  · exact (length_withInFlight _ _ _).trans h.frames
  · exact h.freeNodup
  · intro k
    dsimp only
    rw [stateAt_withInFlight]
    exact h.free k
  · exact h.boundNodup
  · intro k
    dsimp only
    rw [stateAt_withInFlight]
    exact h.bound k
  · exact h.ascending
  · exact h.reclaimNodup
  · exact h.reclaim
  · exact h.dirtyNodup
  · exact h.dirty
  · exact h.dirtyCount

end SmExact

/-! ### Maps built anew -/

theorem smExact_fresh (n : Nat) (w : BitVec 48) : SmExact n ⟨[], List.replicate n ⟨.free, 0⟩, List.range n, [], [], 0, w⟩ := by
  have hst : ∀ k, stateAt k (List.replicate n (⟨.free, 0⟩ : Frame)) = if k < n then some .free else none := by
    intro k
    unfold stateAt
    rw [List.getElem?_replicate]
    split <;> rfl
  constructor
  · simp
  · exact List.nodup_range
  · intro k
    dsimp only
    rw [hst]
    simp
  · simp
  · intro k
    dsimp only
    rw [hst]
    split <;> simp
  all_goals simp

/-- What a saved or assembled map says of its frames and segments: every frame is described once, and the segments are distinct;
the dirty entries are DIRTY and the clean ones CLEAN. -/
structure SavedExact (n : Nat) (m : SavedMap) : Prop where
  frames : ((m.dirty ++ m.clean).map Entry.frame ++ m.free ++ m.trimming ++ m.retired).Perm (List.range n)
  segments : ((m.dirty ++ m.clean).map Entry.segment).Nodup
  dirty : ∀ e ∈ m.dirty, e.state = .dirty
  clean : ∀ e ∈ m.clean, e.state = .clean

/-- The map that a saved map loads (R178). -/
def loadedSm (n : Nat) (m : SavedMap) (w : BitVec 48) : SegmentMap where
  entries := (m.dirty ++ m.clean).foldl (fun es e => insertEntry e es) []
  frames := (List.range n).map fun f => ⟨savedFrameState m f, 0⟩
  freeList := m.free
  reclaim := m.clean.map Entry.segment
  dirty := m.dirty.map Entry.segment
  dirtyCount := m.dirty.length
  writeSeq := w

theorem foldl_insertEntry_perm (es acc : List Entry) :
    (es.foldl (fun es e => insertEntry e es) acc).Perm (es ++ acc) := by
  induction es generalizing acc with
  | nil => exact .refl _
  | cons e es ih =>
    refine (ih _).trans ?_
    exact ((insertEntry_perm e acc).append_left es).trans List.perm_middle

theorem foldl_insertEntry_ascending {es acc : List Entry} (hacc : (acc.map Entry.segment).Pairwise (· < ·))
    (hn : ((es ++ acc).map Entry.segment).Nodup) :
    ((es.foldl (fun es e => insertEntry e es) acc).map Entry.segment).Pairwise (· < ·) := by
  induction es generalizing acc with
  | nil => exact hacc
  | cons e es ih =>
    obtain ⟨hnot, hn'⟩ := List.nodup_cons.1 hn
    refine ih (insertEntry_ascending hacc fun x hx heq => hnot ?_) ?_
    · rw [← heq]
      exact List.mem_map_of_mem (List.mem_append_right _ hx)
    · refine (((insertEntry_perm e acc).append_left es).trans List.perm_middle).map Entry.segment |>.nodup_iff.2 hn

namespace SavedExact

variable {n : Nat} {m : SavedMap} (h : SavedExact n m)
include h

/-- The four classes of frames are disjoint, and each holds a frame once. -/
theorem classes : ((m.dirty ++ m.clean).map Entry.frame).Nodup ∧ m.free.Nodup
    ∧ (∀ f ∈ m.free, f ∉ m.trimming ∧ f ∉ m.retired)
    ∧ ∀ f ∈ (m.dirty ++ m.clean).map Entry.frame, f ∉ m.free ∧ f ∉ m.trimming ∧ f ∉ m.retired := by
  have hn := h.frames.nodup_iff.2 List.nodup_range
  obtain ⟨h1, -, d1⟩ := List.nodup_append.1 hn
  obtain ⟨h2, -, d2⟩ := List.nodup_append.1 h1
  obtain ⟨h3, h4, d3⟩ := List.nodup_append.1 h2
  refine ⟨h3, h4, fun f hf => ⟨fun hk => ?_, fun hk => ?_⟩, fun f hf => ⟨fun hk => ?_, fun hk => ?_, fun hk => ?_⟩⟩
  · exact d2 f (List.mem_append_right _ hf) f hk rfl
  · exact d1 f (List.mem_append_left _ (List.mem_append_right _ hf)) f hk rfl
  · exact d3 f hf f hk rfl
  · exact d2 f (List.mem_append_left _ hf) f hk rfl
  · exact d1 f (List.mem_append_left _ (List.mem_append_left _ hf)) f hk rfl

theorem inTable {f : Nat} (hf : f ∈ (m.dirty ++ m.clean).map Entry.frame ∨ f ∈ m.free) : f < n :=
  List.mem_range.1 (h.frames.mem_iff.1 (List.mem_append_left _ (List.mem_append_left _ (List.mem_append.2 hf))))

theorem state_free (f : Nat) : savedFrameState m f = .free ↔ f ∈ m.free := by
  obtain ⟨-, -, hfree, -⟩ := h.classes
  unfold savedFrameState
  simp only [List.contains_iff_mem]
  constructor
  · intro hs
    split at hs
    · cases hs
    · split at hs
      · cases hs
      · split at hs
        · assumption
        · cases hs
  · intro hf
    rw [if_neg (hfree f hf).1, if_neg (hfree f hf).2, if_pos hf]

theorem state_bound {f : Nat} (hf : f < n) :
    savedFrameState m f = .bound ↔ f ∈ (m.dirty ++ m.clean).map Entry.frame := by
  obtain ⟨-, -, -, hbound⟩ := h.classes
  unfold savedFrameState
  simp only [List.contains_iff_mem]
  constructor
  · intro hs
    split at hs
    · cases hs
    · split at hs
      · cases hs
      · split at hs
        · cases hs
        · have := h.frames.mem_iff.2 (List.mem_range.2 hf)
          simp only [List.mem_append] at this ⊢
          grind
  · intro hin
    obtain ⟨h1, h2, h3⟩ := hbound f hin
    rw [if_neg h2, if_neg h3, if_neg h1]

/-- The map that a saved map loads is exact (R178). -/
theorem smExact (w : BitVec 48) : SmExact n (loadedSm n m w) := by
  unfold loadedSm
  have hperm : ((m.dirty ++ m.clean).foldl (fun es e => insertEntry e es) []).Perm (m.dirty ++ m.clean) := by
    simpa using foldl_insertEntry_perm (m.dirty ++ m.clean) []
  have hst : ∀ k, stateAt k ((List.range n).map fun f => (⟨savedFrameState m f, 0⟩ : Frame))
      = if k < n then some (savedFrameState m k) else none := by
    intro k
    unfold stateAt
    rw [List.getElem?_map]
    by_cases hk : k < n <;> simp [hk]
  have hsegs := h.segments
  rw [List.map_append] at hsegs
  obtain ⟨hd, hc, -⟩ := List.nodup_append.1 hsegs
  obtain ⟨hboundN, hfreeN, -, -⟩ := h.classes
  have hlist : ∀ (st st' : EntryState) (as bs : List Entry), (∀ e ∈ as, e.state = st) → (∀ e ∈ bs, e.state = st') →
      st' ≠ st → ∀ g, g ∈ as.map Entry.segment ↔ ∃ e, (e ∈ as ∨ e ∈ bs) ∧ e.segment = g ∧ e.state = st := by
    intro st st' as bs has hbs hne g
    rw [List.mem_map]
    constructor
    · rintro ⟨e, he, rfl⟩
      exact ⟨e, .inl he, rfl, has e he⟩
    · rintro ⟨e, he | he, rfl, hest⟩
      · exact ⟨e, he, rfl⟩
      · exact absurd ((hbs e he).symm.trans hest) hne
  constructor
  · simp
  · exact hfreeN
  · intro k
    dsimp only
    rw [hst, ← h.state_free]
    split
    · simp
    · rename_i hk
      simp only [reduceCtorEq, iff_false]
      exact fun hs => hk (h.inTable (.inr ((h.state_free k).1 hs)))
  · exact (hperm.map _).nodup_iff.2 hboundN
  · intro k
    dsimp only
    simp only [hst, hperm.mem_iff]
    rw [← List.mem_map (f := Entry.frame)]
    split
    · rename_i hk
      simpa using h.state_bound hk
    · rename_i hk
      simp only [reduceCtorEq, false_iff]
      exact fun hin => hk (h.inTable (.inl hin))
  · exact foldl_insertEntry_ascending List.Pairwise.nil (by simpa using h.segments)
  · exact hc
  · intro g
    dsimp only
    simp only [hperm.mem_iff, List.mem_append]
    rw [hlist .clean .dirty m.clean m.dirty h.clean h.dirty (by decide) g]
    simp only [or_comm]
  · exact hd
  · intro g
    dsimp only
    simp only [hperm.mem_iff, List.mem_append]
    exact hlist .dirty .clean m.dirty m.clean h.dirty h.clean (by decide) g
  · dsimp only
    rw [hperm.countP_eq, List.countP_append, List.countP_eq_length.2 fun e he => by simp [h.dirty e he, countsDirty],
      List.countP_eq_zero.2 fun e he => by simp [h.clean e he, countsDirty], Nat.add_zero]

end SavedExact

theorem savedExact_of_consistent {data body : List Byte} {m : SavedMap} {s : State} (hr : readMap data body = some m)
    (hc : mapConsistent m s = true) : SavedExact s.lu.frameCount m := by
  simp only [mapConsistent, Bool.and_eq_true, beq_iff_eq, List.all_eq_true, List.contains_iff_mem, List.mem_range,
    decide_eq_true_eq] at hc
  obtain ⟨⟨⟨hlen, hall⟩, hseg⟩, -⟩ := hc
  have hstates : (∀ e ∈ m.dirty, e.state = .dirty) ∧ ∀ e ∈ m.clean, e.state = .clean := by
    unfold readMap at hr
    split at hr
    · cases hr
    · split at hr
      · cases hr
      · split at hr
        · cases hr
        · split at hr
          · cases hr
          · cases hr
            simp
  refine ⟨?_, hseg, hstates.1, hstates.2⟩
  have hsub : List.range s.lu.frameCount ⊆ (m.dirty ++ m.clean).map Entry.frame ++ m.free ++ m.trimming ++ m.retired :=
    fun f hf => hall f (List.mem_range.1 hf)
  exact ((List.nodup_range.subperm hsub).perm_of_length_le (by rw [hlen]; simp)).symm

end Sys2Proof.Machine

/-! ## Every step keeps the Segment Map exact -/

namespace Sys2Proof.Machine

/-- What `mapExact` speaks of. -/
structure MapPart where
  sm : SegmentMap
  frameCount : Nat
  table : List Claim
  classes : Option (List Nat × List Nat)

/-- The map part of a state. -/
def mapPart (s : State) : MapPart := ⟨s.sm, s.lu.frameCount, s.cu.rebuildTable, classesOf s.cu.operation⟩

/-- The frames a Rebuild has entered in its table and those it has classed stand there once, and the table holds one claimant a
segment: `rebuildExact`, spoken of the table and the classes. -/
def ClaimsExact (n : Nat) (table : List Claim) (trimming retired : List Nat) : Prop :=
  (table.map Claim.frame ++ trimming ++ retired).Nodup
    ∧ (∀ f ∈ table.map Claim.frame ++ trimming ++ retired, f < n) ∧ (table.map Claim.segment).Nodup

theorem rebuildExact_iff (s : State) : rebuildExact s ↔
    ∀ c, classesOf s.cu.operation = some c → ClaimsExact s.lu.frameCount s.cu.rebuildTable c.1 c.2 := by
  unfold rebuildExact ClaimsExact
  constructor
  · intro h c hc
    cases ho : s.cu.operation with
    | rebuilding p => rw [ho] at hc; cases hc; exact h p ho
    | idle | quiescing _ _ | saving _ | restoreDraining _ | restoring _ | rebuildDraining => rw [ho] at hc; cases hc
  · intro h p hp
    exact h (p.trimming, p.retired) (by rw [hp]; rfl)

/-- `mapExact`, spoken of the map part. -/
def MapPart.Exact (x : MapPart) : Prop :=
  SmExact x.frameCount x.sm ∧ ∀ c, x.classes = some c → ClaimsExact x.frameCount x.table c.1 c.2

theorem mapExact_iff (s : State) : mapExact s ↔ (mapPart s).Exact := by
  unfold mapExact MapPart.Exact
  rw [rebuildExact_iff, ← and_assoc, ← smExact_iff]
  rfl

/-- A state with another map is exact when the map is. -/
theorem mapExact_of_sm {s t : State} {m : SegmentMap} (h : mapExact s) (ht : mapPart t = { mapPart s with sm := m })
    (hm : SmExact s.lu.frameCount m) : mapExact t := by
  rw [mapExact_iff, ht]
  exact ⟨hm, ((mapExact_iff s).1 h).2⟩

theorem mapExact_of_same {s t : State} (h : mapExact s) (ht : mapPart t = mapPart s) : mapExact t := by
  rw [mapExact_iff, ht]
  exact (mapExact_iff s).1 h

theorem mapExact.smExact {s : State} (h : mapExact s) : SmExact s.lu.frameCount s.sm := ((mapExact_iff s).1 h).1

/-! ### What leaves the map part alone -/

theorem mapPart_bump (k : Counter) (s : State) : mapPart (bump k s) = mapPart s := by
  unfold bump
  split <;> rfl

theorem mapPart_post (k : NoticeKind) (s : State) : mapPart (post k s) = mapPart s := by
  unfold post
  dsimp only
  split
  · rfl
  · split
    · exact mapPart_bump _ _
    · split
      · rfl
      · exact mapPart_bump _ _

theorem mapPart_occur (k : NoticeKind) (a : Nat) (s : State) : mapPart (occur k a s) = mapPart s := by
  unfold occur
  dsimp only
  split
  · rfl
  · split
    · exact mapPart_post _ _
    · rfl

theorem mapPart_sendNotice (n : Notice) (rest : List Notice) (s : State) : mapPart (sendNotice n rest s) = mapPart s := by
  have h : mapPart (bump (.noticesSent n.kind) { s with lu.notices := rest, responseWire := noticeBytes n }) = mapPart s :=
    (mapPart_bump _ _).trans rfl
  unfold sendNotice postDeferred
  split
  · exact h
  · exact (mapPart_post _ _).trans h

theorem mapPart_takeCandidate (g : Nat) (s : State) : mapPart (takeCandidate g s).2 = mapPart s := by
  unfold takeCandidate
  split <;> rfl

theorem mapPart_moving (R : MapPart → Prop) : Moving fun s => R (mapPart s) where
  touch := fun _ h => h
  bump := fun k _ h => (congrArg R (mapPart_bump k _)).mpr h
  occur := fun k a _ _ h => (congrArg R (mapPart_occur k a _)).mpr h
  monitor := fun _ _ h => h
  tracker := fun _ _ h => h
  held := fun _ h => h
  operation := fun {s} o ho h => by
    have : mapPart { s with cu.operation := o } = mapPart s := by simp only [mapPart, ho.classes]
    exact (congrArg R this).mpr h
  flash := fun _ _ h => h
  platter := fun _ _ h => h
  reissued := fun _ _ _ _ h => h
  moves := fun _ h => h

theorem mapPart_endOfEntry (mk : Option Byte) (s : State) : mapPart (endOfEntry mk s) = mapPart s :=
  (mapPart_moving (· = mapPart s)).endOfEntry mk rfl

theorem mapPart_endByYield (number : Byte) (s : State) : mapPart (endByYield number s) = mapPart s :=
  (mapPart_moving (· = mapPart s)).endByYield number rfl

theorem mapPart_askTrim (f : Nat) (s : State) : mapPart (askTrim f s) = mapPart s :=
  (mapPart_moving (· = mapPart s)).askTrim f rfl

theorem mapPart_callPass (s : State) : mapPart (callPass s) = mapPart s := rfl

theorem mapPart_overtake (number : Byte) (s : State) : mapPart (overtake number s) = mapPart s := rfl

theorem mapPart_askLabelUpdate (f : Nat) (c : Byte) (s : State) : mapPart (askLabelUpdate f c s) = mapPart s :=
  (mapPart_moving (· = mapPart s)).askLabelUpdate f c rfl

theorem mapPart_compareDirty (s : State) : mapPart (compareDirty s) = mapPart s :=
  (mapPart_moving (· = mapPart s)).compareDirty rfl

theorem mapPart_setDirtyCount (n : Nat) (s : State) :
    mapPart (setDirtyCount n s) = { mapPart s with sm := { s.sm with dirtyCount := n } } := mapPart_compareDirty _

theorem mapPart_frameLeavesBound (f : Nat) (s : State) :
    mapPart (frameLeavesBound f s)
      = { mapPart s with sm := { s.sm with frames := withFrameState f .trimming s.sm.frames } } := by
  unfold frameLeavesBound
  dsimp only
  have hM := mapPart_moving
    (· = { mapPart s with sm := { s.sm with frames := withFrameState f .trimming s.sm.frames } })
  have h1 := hM.dropFrameOrders f (s := touch 0 { s with sm.frames := withFrameState f .trimming s.sm.frames }) rfl
  have hall : ∀ (os : List Order) (t : State),
      mapPart t = { mapPart s with sm := { s.sm with frames := withFrameState f .trimming s.sm.frames } } →
      mapPart (os.foldl (fun t o => withdrawn o t) t)
        = { mapPart s with sm := { s.sm with frames := withFrameState f .trimming s.sm.frames } } := by
    intro os
    induction os with
    | nil => exact fun _ h => h
    | cons o os ih => exact fun t h => ih _ (hM.withdrawn o h)
  split
  · exact hM.askTrim _ (hall _ _ h1)
  · exact hall _ _ h1

/-! ### The operations of the Segment Map -/

theorem entryAt_eq (g : Nat) (s : State) : entryAt g s.sm.entries = lookup g s := rfl

theorem lookup_of_matching {g f : Nat} {s : State} {e : Entry} (h : matching g f s = some e) : lookup g s = some e :=
  (Option.filter_eq_some_iff.1 h).1

theorem lookup_of_marked {g : Nat} {number : Byte} {s : State} {e : Entry} (h : marked g number s = some e) :
    lookup g s = some e := (Option.filter_eq_some_iff.1 h).1

/-- An entry that keeps its segment, frame and state. -/
theorem mapExact_modifyEntry {g : Nat} {f : Entry → Entry} {s : State} (h : mapExact s)
    (hf : ∀ e, (f e).segment = e.segment ∧ (f e).frame = e.frame ∧ (f e).state = e.state) :
    mapExact (modifyEntry g f s) := mapExact_of_sm h rfl (h.smExact.modify hf)

theorem dirtyCount_pos {s : State} (h : mapExact s) {g : Nat} {e : Entry} (he : lookup g s = some e)
    (hc : countsDirty e.state = true) : 0 < s.sm.dirtyCount := by
  rw [h.smExact.dirtyCount]
  exact List.countP_pos_iff.2 ⟨e, List.mem_of_find?_eq_some he, hc⟩

/-- The map with the entry of a segment removed. -/
def removedMap (g : Nat) (e : Entry) (m : SegmentMap) : SegmentMap :=
  { m with
    entries := m.entries.filter fun x => x.segment != g
    frames := withFrameState e.frame .trimming m.frames
    reclaim := m.reclaim.filter fun x => x != g
    dirty := m.dirty.filter fun x => x != g
    dirtyCount := m.dirtyCount - (countsDirty e.state).toNat }

theorem mapPart_removeEntry {g : Nat} {s : State} {e : Entry} (he : lookup g s = some e) :
    mapPart (removeEntry g s) = { mapPart s with sm := removedMap g e s.sm } := by
  unfold removeEntry
  rw [he]
  dsimp only
  generalize hs1 : offLists g { s with sm.entries := s.sm.entries.filter fun x => x.segment != g } = s1
  have h1 : mapPart s1 = { mapPart s with
      sm := { s.sm with
        entries := s.sm.entries.filter fun x => x.segment != g
        reclaim := s.sm.reclaim.filter fun x => x != g
        dirty := s.sm.dirty.filter fun x => x != g } } := by
    rw [← hs1]
    rfl
  have h2 := mapPart_frameLeavesBound e.frame (endOfEntry e.marker s1)
  generalize frameLeavesBound e.frame (endOfEntry e.marker s1) = s2 at h2 ⊢
  have hsm : (endOfEntry e.marker s1).sm = s1.sm := congrArg MapPart.sm (mapPart_endOfEntry e.marker s1)
  rw [mapPart_endOfEntry, hsm, h1] at h2
  have hs1sm : s1.sm = _ := congrArg MapPart.sm h1
  rw [hs1sm] at h2
  split
  · rename_i hc
    have hs2sm : s2.sm = _ := congrArg MapPart.sm h2
    rw [mapPart_setDirtyCount, h2, hs2sm]
    simp [removedMap, hc]
  · rename_i hc
    rw [h2]
    simp [removedMap, hc]

theorem mapExact_removeEntry {g : Nat} {s : State} (h : mapExact s) : mapExact (removeEntry g s) := by
  cases he : lookup g s with
  | none =>
    unfold removeEntry
    rw [he]
    exact h
  | some e =>
    refine mapExact_of_sm h (mapPart_removeEntry he) (h.smExact.remove he ?_)
    cases hc : countsDirty e.state
    · rfl
    · have := dirtyCount_pos h he hc
      simp
      omega

/-! #### A change of an entry's state -/

/-- A list that a segment has left. -/
theorem mem_without {l : List Nat} {g : Nat} {p : Prop} (hp : ¬ p) (x : Nat) :
    x ∈ (l.filter fun x => x != g) ↔ (x ∈ l ∧ x ≠ g) ∨ (x = g ∧ p) := by simp [hp]

/-- A list in which a segment does not stand. -/
theorem mem_unchanged {l : List Nat} {g : Nat} {p : Prop} (hg : g ∉ l) (hp : ¬ p) (x : Nat) :
    x ∈ l ↔ (x ∈ l ∧ x ≠ g) ∨ (x = g ∧ p) := by
  simp only [hp, and_false, or_false]
  exact ⟨fun hx => ⟨hx, fun he => hg (he ▸ hx)⟩, And.left⟩

/-- A list to whose tail a segment has moved. -/
theorem mem_atTail {l : List Nat} {g : Nat} {p : Prop} (hp : p) (x : Nat) :
    x ∈ (l.filter fun x => x != g) ++ [g] ↔ (x ∈ l ∧ x ≠ g) ∨ (x = g ∧ p) := by simp [hp]

theorem nodup_atTail {l : List Nat} {g : Nat} (h : l.Nodup) : ((l.filter fun x => x != g) ++ [g]).Nodup :=
  List.nodup_append.2 ⟨h.filter _, List.nodup_singleton g, fun a ha b hb hab => by simp_all⟩

/-- An entry leaves both lists and becomes NEW or FLUSHING. -/
theorem SmExact.leave {n g c : Nat} {m : SegmentMap} {e : Entry} {f : Entry → Entry} {st : EntryState} (h : SmExact n m)
    (he : entryAt g m.entries = some e) (hf : (f e).segment = e.segment ∧ (f e).frame = e.frame ∧ (f e).state = st)
    (hst : st ≠ .clean ∧ st ≠ .dirty) (hc : c + (countsDirty e.state).toNat = m.dirtyCount + (countsDirty st).toNat) :
    SmExact n { m with
      entries := mapEntry g f m.entries
      reclaim := m.reclaim.filter fun x => x != g
      dirty := m.dirty.filter fun x => x != g
      dirtyCount := c } :=
  h.change he hf (h.reclaimNodup.filter _) (mem_without hst.1) (h.dirtyNodup.filter _) (mem_without hst.2) hc

/-- An entry that is not DIRTY becomes CLEAN at the Reclaim List tail. -/
theorem SmExact.becomeClean {n g c : Nat} {m : SegmentMap} {e : Entry} {f : Entry → Entry} (h : SmExact n m)
    (he : entryAt g m.entries = some e)
    (hf : (f e).segment = e.segment ∧ (f e).frame = e.frame ∧ (f e).state = .clean) (hst : e.state ≠ .dirty)
    (hc : c + (countsDirty e.state).toNat = m.dirtyCount) :
    SmExact n { m with
      entries := mapEntry g f m.entries
      reclaim := (m.reclaim.filter fun x => x != g) ++ [g]
      dirtyCount := c } :=
  h.change he hf (nodup_atTail h.reclaimNodup) (mem_atTail rfl) h.dirtyNodup
    (mem_unchanged (mt (h.mem_dirty he).1 hst) (by decide)) hc

theorem mapExact_emptying {g : Nat} {s : State} (h : mapExact s) : mapExact (emptying g s) := by
  unfold emptying
  split
  · exact h
  · rename_i e he
    have h1 : mapPart (endOfEntry e.marker (offLists g (modifyEntry g (fun x => { x with state := .fresh, marker := none }) s)))
        = { mapPart s with sm := { s.sm with
            entries := mapEntry g (fun x => { x with state := .fresh, marker := none }) s.sm.entries
            reclaim := s.sm.reclaim.filter fun x => x != g
            dirty := s.sm.dirty.filter fun x => x != g } } := (mapPart_endOfEntry _ _).trans rfl
    have hleave : ∀ c, c + (countsDirty e.state).toNat = s.sm.dirtyCount → SmExact s.lu.frameCount { s.sm with
            entries := mapEntry g (fun x => { x with state := .fresh, marker := none }) s.sm.entries
            reclaim := s.sm.reclaim.filter fun x => x != g
            dirty := s.sm.dirty.filter fun x => x != g
            dirtyCount := c } :=
      fun c hc => h.smExact.leave (st := .fresh) he ⟨rfl, rfl, rfl⟩ (by decide) hc
    split
    · exact h
    · exact h
    all_goals
      split
      · exact h
      · split
        · exact mapExact_removeEntry h
        · dsimp only
          split
          · rename_i hc
            have hpos := dirtyCount_pos h he hc
            refine mapExact_of_sm h ?_ (hleave (s.sm.dirtyCount - 1) ?_)
            · rw [mapPart_setDirtyCount, h1]
              have hsm := congrArg MapPart.sm h1
              dsimp only [mapPart] at hsm
              rw [hsm]
            · rw [hc]
              simp
              omega
          · rename_i hc
            refine mapExact_of_sm h h1 (hleave s.sm.dirtyCount ?_)
            simp [hc]

theorem mapExact_dropIfUnused {g : Nat} {s : State} (h : mapExact s) : mapExact (dropIfUnused g s) := by
  unfold dropIfUnused
  split
  · split
    · exact mapExact_removeEntry h
    · exact h
  · exact h

theorem mapExact_createEntry {g absorbs : Nat} {st : EntryState} {marker : Option Byte} {s : State} (h : mapExact s)
    (hg : lookup g s = none) (hst : st = .fresh ∨ st = .inbound) : mapExact (createEntry g st absorbs marker s).2 := by
  unfold createEntry
  split
  · exact h
  · rename_i f rest hfree
    have hp := mapPart_takeCandidate g s
    have hsm : (takeCandidate g s).2.sm = s.sm := congrArg MapPart.sm hp
    refine mapExact_of_sm (s := s) (m := { s.sm with
      entries := insertEntry ⟨g, f, st, .part 0, 0, (takeCandidate g s).1, absorbs, 0, marker⟩ s.sm.entries
      frames := withFrameState f .bound s.sm.frames
      freeList := rest }) h ?_ (h.smExact.create hg hfree rfl rfl hst)
    rw [← hp, ← hsm]
    rfl

theorem mapExact_convertInbound {g : Nat} {s : State} {e : Entry} (h : mapExact s) (he : lookup g s = some e)
    (hst : e.state = .inbound) : mapExact (convertInbound g s) := by
  unfold convertInbound
  rw [he]
  dsimp only
  have hkey : ∀ s1, mapPart s1 = mapPart s → mapExact
      (if validSet e ≠ 0 then toReclaimTail g (modifyEntry g (fun x => { x with state := .clean, marker := none }) s1)
        else modifyEntry g (fun x => { x with state := .fresh, marker := none }) s1) := by
    intro s1 h1
    have hx := mapExact_of_same h h1
    have he1 : lookup g s1 = some e := by
      have hsm : s1.sm = s.sm := congrArg MapPart.sm h1
      unfold lookup
      rw [hsm]
      exact he
    split
    · exact mapExact_of_sm hx rfl (hx.smExact.becomeClean (c := s1.sm.dirtyCount)
        (f := fun x => { x with state := .clean, marker := none }) he1 ⟨rfl, rfl, rfl⟩ (by simp [hst])
        (by simp [hst, countsDirty]))
    · exact mapExact_of_sm hx rfl (hx.smExact.change (c := s1.sm.dirtyCount) (st := .fresh)
        (f := fun x => { x with state := .fresh, marker := none }) he1 ⟨rfl, rfl, rfl⟩ hx.smExact.reclaimNodup
        (mem_unchanged (mt (hx.smExact.mem_reclaim he1).1 (by simp [hst])) (by decide)) hx.smExact.dirtyNodup
        (mem_unchanged (mt (hx.smExact.mem_dirty he1).1 (by simp [hst])) (by decide)) (by rw [hst]; rfl))
  cases e.marker with
  | none => exact hkey s rfl
  | some n => exact hkey _ (mapPart_endByYield n s)

theorem mapExact_absorbRequest {g : Nat} {s : State} (h : mapExact s) : mapExact (absorbRequest g s).2 := by
  unfold absorbRequest
  split
  · rename_i he
    exact mapExact_createEntry h he (.inl rfl)
  · rename_i e he
    refine mapExact_modifyEntry ?_ fun _ => ⟨rfl, rfl, rfl⟩
    split
    · exact mapExact_convertInbound h he ‹_›
    · exact h

theorem mapExact_overtake {number : Byte} {s : State} (h : mapExact s) : mapExact (overtake number s) :=
  mapExact_of_same h rfl

theorem mapExact_absorbOk {g f : Nat} {w : SectorSet} {s : State} (h : mapExact s) : mapExact (absorbOk g f w s) := by
  unfold absorbOk
  split
  · exact h
  · rename_i e hm
    have he := lookup_of_matching hm
    have hx := h.smExact
    dsimp only
    generalize hF : (fun x : Entry => { x with
        validity := validityOf (validSet x ||| w)
        generation := x.generation + 1
        absorbs := x.absorbs - 1
        flushFailures := 0
        state := if x.state = EntryState.fresh || x.state = EntryState.clean then .dirty else x.state }) = F
    have hFe : (F e).segment = e.segment ∧ (F e).frame = e.frame
        ∧ (F e).state = if e.state = EntryState.fresh || e.state = EntryState.clean then .dirty else e.state := by
      rw [← hF]
      exact ⟨rfl, rfl, rfl⟩
    have hdirty : (e.state = .fresh ∨ e.state = .clean) →
        SmExact s.lu.frameCount { s.sm with
          entries := mapEntry g F s.sm.entries
          reclaim := s.sm.reclaim.filter fun x => x != g
          dirty := (s.sm.dirty.filter fun x => x != g) ++ [g]
          dirtyCount := s.sm.dirtyCount + 1 } := by
      intro hst
      refine hx.change (st := .dirty) he ⟨hFe.1, hFe.2.1, ?_⟩ (hx.reclaimNodup.filter _) (mem_without (by decide))
        (nodup_atTail hx.dirtyNodup) (mem_atTail rfl) ?_
      · rw [hFe.2.2]
        rcases hst with hst | hst <;> simp [hst]
      · rcases hst with hst | hst <;> simp [hst, countsDirty]
    have hkept : (e.state = .dirty ∨ e.state = .flushing ∨ e.state = .inbound) → mapExact (modifyEntry g F s) := by
      intro hst
      refine mapExact_of_sm h rfl (hx.change (st := e.state) he ⟨hFe.1, hFe.2.1, ?_⟩ hx.reclaimNodup ?_ hx.dirtyNodup ?_ rfl)
      · rw [hFe.2.2]
        rcases hst with hst | hst | hst <;> simp [hst]
      · intro x
        rw [← hx.mem_reclaim he]
        by_cases hxg : x = g <;> simp [hxg]
      · intro x
        rw [← hx.mem_dirty he]
        by_cases hxg : x = g <;> simp [hxg]
    split
    · exact mapExact_of_sm h (mapPart_setDirtyCount _ _) (hdirty (.inl ‹_›))
    · exact mapExact_of_sm h (mapPart_setDirtyCount _ _) (hdirty (.inr ‹_›))
    · split
      · exact mapExact_overtake (hkept (.inr (.inl ‹_›)))
      · exact hkept (.inr (.inl ‹_›))
    · exact hkept (.inl ‹_›)
    · exact hkept (.inr (.inr ‹_›))

theorem mapExact_absorbError {g f : Nat} {w : SectorSet} {s : State} (h : mapExact s) :
    mapExact (absorbError g f w s) := by
  unfold absorbError
  split
  · exact h
  · refine mapExact_dropIfUnused (mapExact_emptying ?_)
    split
    · exact mapExact_overtake (mapExact_modifyEntry h fun _ => ⟨rfl, rfl, rfl⟩)
    · exact mapExact_modifyEntry h fun _ => ⟨rfl, rfl, rfl⟩

theorem mapExact_absorbWithdrawn {g f : Nat} {s : State} (h : mapExact s) : mapExact (absorbWithdrawn g f s) := by
  unfold absorbWithdrawn
  split
  · exact h
  · exact mapExact_dropIfUnused (mapExact_modifyEntry h fun _ => ⟨rfl, rfl, rfl⟩)

theorem mapExact_readError {g f : Nat} {v : SectorSet} {s : State} (h : mapExact s) : mapExact (readError g f v s).2 := by
  unfold readError
  split
  · exact h
  · split
    · exact mapExact_emptying (mapExact_modifyEntry h fun _ => ⟨rfl, rfl, rfl⟩)
    · exact mapExact_emptying (mapExact_modifyEntry h fun _ => ⟨rfl, rfl, rfl⟩)
    all_goals exact h

theorem mapExact_trimEntry {g : Nat} {v : SectorSet} {s : State} (h : mapExact s) : mapExact (trimEntry g v s) := by
  unfold trimEntry
  split
  · exact h
  · split
    · exact h
    · exact h
    all_goals
      split
      · exact mapExact_removeEntry h
      · exact mapExact_emptying (mapExact_modifyEntry h fun _ => ⟨rfl, rfl, rfl⟩)

theorem mapExact_trimEffect {g : Nat} {v : SectorSet} {s : State} (h : mapExact s) : mapExact (trimEffect g v s) := by
  unfold trimEffect
  split
  · exact h
  · split
    · exact mapExact_trimEntry (mapExact_dropIfUnused (mapExact_convertInbound h ‹_› ‹_›))
    · exact mapExact_trimEntry h

theorem mapExact_promotionFinish {g : Nat} {number : Byte} {s : State} (h : mapExact s) :
    mapExact (promotionFinish g number s) := by
  unfold promotionFinish
  split
  · exact h
  · rename_i e hm
    split
    · exact h
    · rename_i hst
      have hst : e.state = .inbound := by simpa using hst
      split
      · exact mapExact_removeEntry h
      · refine mapExact_of_sm h rfl
          (h.smExact.becomeClean (c := s.sm.dirtyCount) (lookup_of_marked hm) ⟨rfl, rfl, rfl⟩ ?_ ?_) <;>
          simp [hst, countsDirty]

theorem mapExact_flushStart {g : Nat} {number : Byte} {s : State} (h : mapExact s) :
    mapExact (flushStart g number s).2 := by
  unfold flushStart
  split
  · rename_i e hm
    split
    · rename_i hst
      refine mapExact_of_sm h rfl
        (h.smExact.leave (c := s.sm.dirtyCount) (st := .flushing) (lookup_of_marked hm) ⟨rfl, rfl, rfl⟩ (by decide) ?_)
      simp [hst, countsDirty]
    · exact h
  · exact h

theorem mapExact_flushReturns {g failures : Nat} {e : Entry} {s : State} (h : mapExact s) (he : lookup g s = some e)
    (hst : e.state = .flushing) : mapExact (flushReturns g failures s) := by
  have hx := h.smExact
  have hnot : g ∉ s.sm.dirty := mt (hx.mem_dirty he).1 (by simp [hst])
  refine mapExact_of_sm h rfl (hx.change (c := s.sm.dirtyCount) (st := .dirty) he ⟨rfl, rfl, rfl⟩ hx.reclaimNodup
    (mem_unchanged (mt (hx.mem_reclaim he).1 (by simp [hst])) (by decide)) (List.nodup_cons.2 ⟨hnot, hx.dirtyNodup⟩) ?_ ?_)
  · intro x
    rw [List.mem_cons]
    constructor
    · rintro (rfl | hxd)
      · exact .inr ⟨rfl, rfl⟩
      · exact .inl ⟨hxd, fun heq => hnot (heq ▸ hxd)⟩
    · rintro (⟨hxd, -⟩ | ⟨rfl, -⟩)
      · exact .inr hxd
      · exact .inl rfl
  · simp [hst, countsDirty]

theorem mapExact_flushFinish {g : Nat} {number : Byte} {captured : Option Byte} {overtaken : Bool} {s : State}
    (h : mapExact s) : mapExact (flushFinish g number captured overtaken s).2 := by
  unfold flushFinish
  split
  · rename_i e hm
    split
    · exact h
    · rename_i hst
      have hst : e.state = .flushing := by simpa using hst
      have he := lookup_of_marked hm
      split
      · have hpos := dirtyCount_pos h he (by simp [hst, countsDirty])
        refine mapExact_of_same ?_ (mapPart_askLabelUpdate _ _ _)
        refine mapExact_of_sm h (mapPart_setDirtyCount _ _)
          (h.smExact.becomeClean (c := s.sm.dirtyCount - 1) he ⟨rfl, rfl, rfl⟩ (by simp [hst]) ?_)
        simp [hst, countsDirty]
        omega
      · exact mapExact_flushReturns h he hst
  · exact h

theorem mapExact_flushAbandoned {g : Nat} {number : Byte} {cause : StopCause} {s : State} (h : mapExact s) :
    mapExact (flushAbandoned g number cause s) := by
  unfold flushAbandoned
  split
  · rename_i e hm
    split
    · exact mapExact_flushReturns h (lookup_of_marked hm) ‹_›
    · exact h
  · exact h

theorem mapExact_trimResult {f : Nat} {ok : Bool} {s : State} (h : mapExact s) : mapExact (trimResult f ok s) := by
  unfold trimResult
  split
  · exact h
  · rename_i hwas
    have hwas : stateAt f s.sm.frames = some .trimming := not_not.1 hwas
    split
    · exact mapExact_of_sm h rfl (h.smExact.trimmed (st := .free) (l := [f]) hwas (.inl ⟨rfl, rfl⟩))
    · have h1 := h.smExact.trimmed (st := .retired) (l := []) hwas (.inr ⟨rfl, rfl⟩)
      rw [List.append_nil] at h1
      exact mapExact_of_sm h ((mapPart_callPass _).trans (mapPart_bump _ _)) h1

theorem mapExact_frameReturned {f : Nat} {b : Bool} {s : State} (h : mapExact s) : mapExact (frameReturned f b s) := by
  have h1 : mapExact { s with sm.frames := withInFlight f (· - 1) s.sm.frames } :=
    mapExact_of_sm h rfl (h.smExact.inFlight f _)
  unfold frameReturned
  dsimp only
  split
  · exact mapExact_of_same h1 (mapPart_askTrim _ _)
  · exact h1

theorem mapExact_evict {g : Nat} {s : State} (h : mapExact s) : mapExact (evict g s).2 := by
  unfold evict
  split
  · split
    · exact mapExact_of_same (mapExact_removeEntry h) (mapPart_bump _ _)
    · exact h
  · exact h

/-- A segment of a CLEAN entry moves to the tail of the Reclaim List. -/
theorem mapExact_toReclaimTail {g : Nat} {e : Entry} {s : State} (h : mapExact s) (he : lookup g s = some e)
    (hst : e.state = .clean) : mapExact (toReclaimTail g s) := by
  have hx := h.smExact
  refine mapExact_of_sm (s := s) (m := { s.sm with reclaim := (s.sm.reclaim.filter fun x => x != g) ++ [g] }) h rfl
    { hx with reclaimNodup := nodup_atTail hx.reclaimNodup, reclaim := fun x => ?_ }
  dsimp only
  rw [mem_atTail hst, ← hx.mem_reclaim he, ← hx.reclaim]
  by_cases hxg : x = g <;> simp [hxg]

theorem mapPart_heatLimitReached (g : Nat) (s : State) : mapPart (heatLimitReached g s) = mapPart s :=
  (mapPart_occur _ _ _).trans rfl

theorem mapPart_heatAbsent (g c : Nat) (s : State) : mapPart (heatAbsent g c s).2 = mapPart s := by
  unfold heatAbsent
  split
  · dsimp only
    split
    · exact (mapPart_heatLimitReached _ _).trans rfl
    · rfl
  · split
    · rfl
    · dsimp only
      split
      · rfl
      · split
        · split
          · rfl
          · exact mapPart_bump _ _
        · rfl

theorem mapExact_heatUpdate {g boost : Nat} {cmd : Command} {s : State} (h : mapExact s) :
    mapExact (heatUpdate g cmd boost s).2 := by
  unfold heatUpdate
  split
  · rename_i e _
    unfold heatPresent
    dsimp only
    have h1 : ∀ r : HeatRec, mapExact (touch 0 { s with
        sm.entries := mapEntry e.segment (fun x => { x with heat := r }) s.sm.entries }) :=
      fun r => mapExact_of_sm h rfl (h.smExact.modify fun _ => ⟨rfl, rfl, rfl⟩)
    split
    · exact mapExact_of_same (h1 _) (mapPart_heatLimitReached _ _)
    · exact h1 _
  · exact mapExact_of_same h (mapPart_heatAbsent _ _ _)

/-- A reconciliation changes the heat records of the entries alone. -/
theorem mapPart_reconcile (s : State) : ∃ f : Entry → Entry,
    (∀ e, (f e).segment = e.segment ∧ (f e).frame = e.frame ∧ (f e).state = e.state)
      ∧ mapPart (reconcile s) = { mapPart s with sm := { s.sm with entries := s.sm.entries.map f } } := by
  have h1 : mapPart (clampCandidates (discardMapped s)) = mapPart s := by
    unfold clampCandidates discardMapped
    split <;> split <;> rfl
  unfold reconcile
  generalize clampCandidates (discardMapped s) = t at h1
  have hsm : t.sm = s.sm := congrArg MapPart.sm h1
  unfold clampEntries
  split
  · refine ⟨fun e => { e with heat := clampStamp t.hu.epoch e.heat }, fun _ => ⟨rfl, rfl, rfl⟩, ?_⟩
    rw [← h1, ← hsm]
    rfl
  · exact ⟨id, fun _ => ⟨rfl, rfl, rfl⟩, by rw [h1, List.map_id]; rfl⟩

theorem mapExact_reconcile {s : State} (h : mapExact s) : mapExact (reconcile s) := by
  obtain ⟨f, hf, ht⟩ := mapPart_reconcile s
  exact mapExact_of_sm h ht (h.smExact.map hf)

/-! ### Maps built anew -/

theorem mapExact_freshMap {t : State} {n : Nat} {w : BitVec 48} (hn : t.lu.frameCount = n)
    (hm : t.sm = ⟨[], List.replicate n ⟨.free, 0⟩, List.range n, [], [], 0, w⟩)
    (hc : ∀ c, classesOf t.cu.operation = some c → ClaimsExact n t.cu.rebuildTable c.1 c.2) : mapExact t := by
  rw [mapExact_iff]
  refine ⟨?_, ?_⟩
  · show SmExact t.lu.frameCount t.sm
    rw [hn, hm]
    exact smExact_fresh n w
  · show ∀ c, _ = some c → ClaimsExact t.lu.frameCount _ _ _
    rw [hn]
    exact hc

theorem mapPart_askTrims (fs : List Nat) (s : State) : mapPart (askTrims fs s) = mapPart s := by
  unfold askTrims
  induction fs generalizing s with
  | nil => rfl
  | cons f fs ih => exact (ih _).trans (mapPart_askTrim f s)

theorem mapPart_loadMap (m : SavedMap) (w : BitVec 48) (s : State) :
    mapPart (loadMap m w s) = { mapPart s with sm := loadedSm s.lu.frameCount m w } := mapPart_askTrims _ _

theorem mapExact_loadMap {m : SavedMap} {w : BitVec 48} {s : State} (hm : SavedExact s.lu.frameCount m)
    (hc : ∀ c, classesOf s.cu.operation = some c → ClaimsExact s.lu.frameCount s.cu.rebuildTable c.1 c.2) :
    mapExact (loadMap m w s) := by
  rw [mapExact_iff, mapPart_loadMap]
  exact ⟨hm.smExact w, hc⟩

theorem mapExact.claims {s : State} (h : mapExact s) :
    ∀ c, classesOf s.cu.operation = some c → ClaimsExact s.lu.frameCount s.cu.rebuildTable c.1 c.2 :=
  ((mapExact_iff s).1 h).2

theorem mapExact_init {s : State} (c : Fin 6) (h : mapExact s) : mapExact (initComponent c s) := by
  fin_cases c
  · exact mapExact_freshMap rfl rfl h.claims
  all_goals exact mapExact_of_same h rfl

theorem mapExact_load {s t : State} {c : Fin 6} {data body : List Byte} (hl : loadBody c data body s = some t)
    (h : mapExact s) : mapExact t := by
  unfold loadBody at hl
  split at hl
  · unfold loadC0 at hl
    split at hl
    · rename_i hr
      split at hl
      · rename_i hcons
        cases hl
        exact mapExact_loadMap (savedExact_of_consistent hr hcons) h.claims
      · cases hl
    · cases hl
  · unfold loadC1 at hl
    dsimp only at hl
    split at hl
    · cases hl
      exact mapExact_of_same h rfl
    · cases hl
  · cases hl
    exact mapExact_of_same h rfl
  · cases hl
    exact mapExact_of_same h rfl
  · cases hl
    generalize renumberRanks _ = v
    exact mapExact_of_same h rfl
  · cases hl
    generalize Vector.ofFn _ = v
    exact mapExact_of_same h rfl

/-! ### Rebuild -/

theorem classed_iff (f : Nat) (p : RebuildProgress) (s : State) :
    classed f p s = true ↔ f ∈ s.cu.rebuildTable.map Claim.frame ++ p.trimming ++ p.retired := by
  simp only [classed, Bool.or_eq_true, List.contains_iff_mem, List.any_eq_true, beq_iff_eq, List.mem_append, List.mem_map]
  rw [or_comm, or_assoc]

theorem insertClaim_perm (c : Claim) (cs : List Claim) : (insertClaim c cs).Perm (c :: cs) := by
  induction cs with
  | nil => exact .refl _
  | cons d ds ih =>
    unfold insertClaim
    split
    · exact .refl _
    · exact (ih.cons d).trans (.swap c d ds)

theorem sortClaims_perm (cs : List Claim) : (sortClaims cs).Perm cs := by
  have h : ∀ acc, (cs.foldl (fun acc c => insertClaim c acc) acc).Perm (cs ++ acc) := by
    induction cs with
    | nil => exact fun acc => .refl _
    | cons c cs ih =>
      intro acc
      exact (ih _).trans (((insertClaim_perm c acc).append_left cs).trans List.perm_middle)
  simpa [sortClaims] using h []

/-- The claims of a table, dirty ones first, as the map a Rebuild assembles holds them. -/
theorem assembledMap_perm (p : RebuildProgress) (s : State) :
    ((assembledMap p s).dirty ++ (assembledMap p s).clean).Perm (s.cu.rebuildTable.map (claimEntry s.hu.epoch)) := by
  have h1 := (sortClaims_perm (s.cu.rebuildTable.filter fun c => c.label.dirty)).map (claimEntry s.hu.epoch)
  have h2 := (sortClaims_perm (s.cu.rebuildTable.filter fun c => !c.label.dirty)).map (claimEntry s.hu.epoch)
  refine (h1.append h2).trans ?_
  rw [← List.map_append]
  exact (List.filter_append_perm (fun c : Claim => c.label.dirty) _).map _

theorem savedExact_assembledMap {p : RebuildProgress} {s : State}
    (h : ClaimsExact s.lu.frameCount s.cu.rebuildTable p.trimming p.retired) :
    SavedExact s.lu.frameCount (assembledMap p s) := by
  obtain ⟨hn, hlt, hseg⟩ := h
  have hperm := assembledMap_perm p s
  have hframes : (((assembledMap p s).dirty ++ (assembledMap p s).clean).map Entry.frame).Perm
      (s.cu.rebuildTable.map Claim.frame) := by
    refine (hperm.map _).trans ?_
    rw [List.map_map]
    exact .refl _
  have hsort : ∀ (b : Bool) (st : EntryState), (∀ c : Claim, c.label.dirty = b → (claimEntry s.hu.epoch c).state = st) →
      ∀ e ∈ (sortClaims (s.cu.rebuildTable.filter fun c : Claim => c.label.dirty == b)).map (claimEntry s.hu.epoch),
        e.state = st := by
    intro b st hb e he
    obtain ⟨c, hc, rfl⟩ := List.mem_map.1 he
    have hc := (sortClaims_perm _).mem_iff.1 hc
    exact hb c (by simpa using (List.mem_filter.1 hc).2)
  refine ⟨?_, ?_, ?_, ?_⟩
  · have hall : (((assembledMap p s).dirty ++ (assembledMap p s).clean).map Entry.frame ++ (assembledMap p s).free
        ++ p.trimming ++ p.retired).Perm
        ((s.cu.rebuildTable.map Claim.frame ++ p.trimming ++ p.retired) ++ freeFrames p s) := by
      refine (((hframes.append_right _).append_right _).append_right _).trans ?_
      simp only [List.append_assoc]
      refine List.Perm.append_left _ ?_
      rw [← List.append_assoc p.trimming]
      exact List.perm_append_comm
    refine hall.trans ((List.perm_ext_iff_of_nodup ?_ List.nodup_range).2 fun f => ?_)
    · refine List.nodup_append.2 ⟨hn, List.nodup_range.filter _, fun a ha b hb hab => ?_⟩
      have := (List.mem_filter.1 hb).2
      rw [← hab, (classed_iff a p s).2 ha] at this
      cases this
    · rw [List.mem_append, freeFrames, List.mem_filter, ← classed_iff, List.mem_range]
      constructor
      · rintro (hc | ⟨hf, -⟩)
        · exact hlt f ((classed_iff f p s).1 hc)
        · exact hf
      · intro hf
        by_cases hc : classed f p s = true
        · exact .inl hc
        · exact .inr ⟨hf, by simpa using hc⟩
  · refine (hperm.map _).nodup_iff.2 ?_
    rw [List.map_map]
    exact hseg
  · intro e he
    refine hsort true .dirty (fun c hc => by simp [claimEntry, hc]) e ?_
    simpa [assembledMap] using he
  · intro e he
    refine hsort false .clean (fun c hc => by simp [claimEntry, hc]) e ?_
    simpa [assembledMap] using he

theorem mapPart_finishRebuild (p : RebuildProgress) (s : State) : mapPart (finishRebuild p s)
    = { mapPart (reconcile (touch 0 (loadMap (assembledMap p s) (rebuiltSeq p s) s))) with classes := none } := rfl

theorem mapExact_finishRebuild {p : RebuildProgress} {s : State}
    (h : ClaimsExact s.lu.frameCount s.cu.rebuildTable p.trimming p.retired) : mapExact (finishRebuild p s) := by
  obtain ⟨f, hf, ht⟩ := mapPart_reconcile (touch 0 (loadMap (assembledMap p s) (rebuiltSeq p s) s))
  have hload := mapPart_loadMap (assembledMap p s) (rebuiltSeq p s) s
  rw [mapExact_iff, mapPart_finishRebuild]
  generalize loadMap (assembledMap p s) (rebuiltSeq p s) s = l at ht hload
  have hl : SmExact s.lu.frameCount l.sm :=
    (congrArg (fun x => SmExact s.lu.frameCount x.sm) hload).mpr ((savedExact_assembledMap h).smExact _)
  have hlf : l.lu.frameCount = s.lu.frameCount := congrArg MapPart.frameCount hload
  have hr : (reconcile (touch 0 l)).lu.frameCount = s.lu.frameCount := (congrArg MapPart.frameCount ht).trans hlf
  have hrs : (reconcile (touch 0 l)).sm = { l.sm with entries := l.sm.entries.map f } := congrArg MapPart.sm ht
  refine ⟨?_, fun c hc => by cases hc⟩
  show SmExact (reconcile (touch 0 l)).lu.frameCount (reconcile (touch 0 l)).sm
  rw [hr, hrs]
  exact hl.map hf

/-- What entering a claimant does to the table and the frame that loses. -/
theorem enterClaim_cases (c : Claim) (table : List Claim) :
    ((∀ d ∈ table, d.segment ≠ c.segment) ∧ enterClaim c table = (table ++ [c], none))
      ∨ ∃ d as bs, table = as ++ d :: bs ∧ d.segment = c.segment
        ∧ ((winsOver c d = true
            ∧ enterClaim c table = (table.map fun x => if x.segment == c.segment then c else x, some d.frame))
          ∨ (winsOver c d = false ∧ enterClaim c table = (table, some c.frame))) := by
  unfold enterClaim
  cases hf : table.find? fun d => d.segment == c.segment with
  | none =>
    refine .inl ⟨fun d hd => ?_, rfl⟩
    simpa using List.find?_eq_none.1 hf d hd
  | some d =>
    obtain ⟨as, bs, hes⟩ := List.append_of_mem (List.mem_of_find?_eq_some hf)
    refine .inr ⟨d, as, bs, hes, by simpa using List.find?_some hf, ?_⟩
    cases hw : winsOver c d
    · exact .inr ⟨rfl, by simp [hw]⟩
    · exact .inl ⟨rfl, by simp [hw]⟩

theorem claimsExact_enter {n : Nat} {c : Claim} {table : List Claim} {trimming retired : List Nat}
    (h : ClaimsExact n table trimming retired) (hf : c.frame ∉ table.map Claim.frame ++ trimming ++ retired)
    (hlt : c.frame < n) :
    ClaimsExact n (enterClaim c table).1 (trimming ++ (enterClaim c table).2.toList) retired := by
  obtain ⟨hn, hall, hseg⟩ := h
  have hnew : (c.frame :: (table.map Claim.frame ++ trimming ++ retired)).Nodup := List.nodup_cons.2 ⟨hf, hn⟩
  have hnewlt : ∀ f ∈ c.frame :: (table.map Claim.frame ++ trimming ++ retired), f < n := by
    intro f hin
    rcases List.mem_cons.1 hin with rfl | hin
    · exact hlt
    · exact hall f hin
  have hmove : ∀ fs ts : List Nat, (fs ++ ts ++ retired).Perm (c.frame :: (table.map Claim.frame ++ trimming ++ retired)) →
      (fs ++ ts ++ retired).Nodup ∧ ∀ f ∈ fs ++ ts ++ retired, f < n :=
    fun fs ts hp => ⟨hp.nodup_iff.2 hnew, fun f hin => hnewlt f (hp.mem_iff.1 hin)⟩
  rcases enterClaim_cases c table with ⟨hno, heq⟩ | ⟨d, as, bs, htab, hdc, ⟨-, heq⟩ | ⟨-, heq⟩⟩
  · rw [heq]
    have hp : ((table ++ [c]).map Claim.frame ++ (trimming ++ []) ++ retired).Perm
        (c.frame :: (table.map Claim.frame ++ trimming ++ retired)) := by
      simp only [List.map_append, List.map_cons, List.map_nil, List.append_nil, List.append_assoc, List.singleton_append]
      exact List.perm_middle
    refine ⟨(hmove _ _ hp).1, (hmove _ _ hp).2, ?_⟩
    rw [List.map_append]
    refine List.nodup_append.2 ⟨hseg, List.nodup_singleton _, fun a ha b hb hab => ?_⟩
    obtain ⟨x, hx, rfl⟩ := List.mem_map.1 ha
    exact hno x hx (hab.trans (List.mem_singleton.1 hb))
  · rw [heq]
    have hsegs := hseg
    rw [htab, List.map_append, List.map_cons, List.nodup_append] at hsegs
    obtain ⟨-, hcons, hdis⟩ := hsegs
    have hothers : ∀ l : List Claim, (∀ x ∈ l, x.segment ≠ c.segment) →
        (l.map fun x => if x.segment == c.segment then c else x) = l := fun l hl => by
      refine (List.map_congr_left fun x hx => ?_).trans (List.map_id l)
      simp [hl x hx]
    have hmap : (table.map fun x => if x.segment == c.segment then c else x) = as ++ c :: bs := by
      rw [htab, List.map_append, List.map_cons, hothers as ?_, hothers bs ?_]
      · simp [hdc]
      · intro x hx
        rw [← hdc]
        exact fun he => (List.nodup_cons.1 hcons).1 (he ▸ List.mem_map_of_mem hx)
      · intro x hx
        rw [← hdc]
        exact hdis _ (List.mem_map_of_mem hx) _ List.mem_cons_self
    dsimp only
    rw [hmap]
    have hp : ((as ++ c :: bs).map Claim.frame ++ (trimming ++ [d.frame]) ++ retired).Perm
        (c.frame :: (table.map Claim.frame ++ trimming ++ retired)) := by
      rw [htab]
      simp only [List.map_append, List.map_cons, List.append_assoc, List.cons_append, List.nil_append]
      refine List.perm_middle.trans (.cons _ (.append_left _ ?_))
      have hp2 : (bs.map Claim.frame ++ (trimming ++ d.frame :: retired)).Perm
          (d.frame :: (bs.map Claim.frame ++ (trimming ++ retired))) := by
        rw [← List.append_assoc, ← List.append_assoc]
        exact List.perm_middle
      exact hp2
    refine ⟨(hmove _ _ hp).1, (hmove _ _ hp).2, ?_⟩
    rw [htab] at hseg
    simpa [hdc] using hseg
  · rw [heq]
    have hp : (table.map Claim.frame ++ (trimming ++ [c.frame]) ++ retired).Perm
        (c.frame :: (table.map Claim.frame ++ trimming ++ retired)) := by
      simp only [List.append_assoc, List.cons_append, List.nil_append]
      rw [← List.append_assoc, ← List.append_assoc]
      exact List.perm_middle
    exact ⟨(hmove _ _ hp).1, (hmove _ _ hp).2, hseg⟩

theorem claimsExact_classFrame {f : Nat} {ok : Bool} {l : FrameLabel} {p : RebuildProgress} {s : State}
    (h : ClaimsExact s.lu.frameCount s.cu.rebuildTable p.trimming p.retired) :
    ClaimsExact s.lu.frameCount (classFrame f ok l p s).2.cu.rebuildTable (classFrame f ok l p s).1.trimming
      (classFrame f ok l p s).1.retired := by
  unfold classFrame
  split
  · exact h
  · rename_i hc
    simp only [Bool.or_eq_true, decide_eq_true_eq, classed_iff, not_or, not_le] at hc
    obtain ⟨hnot, hlt⟩ := hc
    obtain ⟨hn, hall, hseg⟩ := h
    split
    · refine ⟨?_, ?_, ?_⟩
      · rw [bump_cu_rebuildTable, ← List.append_assoc]
        exact List.nodup_append.2 ⟨hn, List.nodup_singleton _, fun a ha b hb hab =>
          hnot (List.mem_singleton.1 hb ▸ hab ▸ ha)⟩
      · rw [bump_cu_rebuildTable, ← List.append_assoc]
        intro k hk
        rcases List.mem_append.1 hk with hk | hk
        · exact hall k hk
        · exact List.mem_singleton.1 hk ▸ hlt
      · rw [bump_cu_rebuildTable]
        exact hseg
    · split
      · exact ⟨hn, hall, hseg⟩
      · unfold classLabel
        dsimp only
        split
        · have hp : (s.cu.rebuildTable.map Claim.frame ++ (p.trimming ++ [f]) ++ p.retired).Perm
              (f :: (s.cu.rebuildTable.map Claim.frame ++ p.trimming ++ p.retired)) := by
            simp only [List.append_assoc, List.cons_append, List.nil_append]
            rw [← List.append_assoc, ← List.append_assoc]
            exact List.perm_middle
          refine ⟨hp.nodup_iff.2 (List.nodup_cons.2 ⟨hnot, hn⟩), fun k hk => ?_, hseg⟩
          rcases List.mem_cons.1 (hp.mem_iff.1 hk) with rfl | hk
          · exact hlt
          · exact hall k hk
        · exact claimsExact_enter (c := ⟨_, f, l⟩) ⟨hn, hall, hseg⟩ hnot hlt

theorem mapPart_classFrame (f : Nat) (ok : Bool) (l : FrameLabel) (p : RebuildProgress) (s : State) :
    ∃ table, mapPart (classFrame f ok l p s).2 = { mapPart s with table := table } := by
  unfold classFrame classLabel
  split
  · exact ⟨_, rfl⟩
  · split
    · exact ⟨_, mapPart_bump _ _⟩
    · split
      · exact ⟨_, rfl⟩
      · dsimp only
        split <;> exact ⟨_, rfl⟩

theorem mapExact_labelResult {f : Nat} {ok : Bool} {l : FrameLabel} {s : State} (h : mapExact s) :
    mapExact (labelResult f ok l s) := by
  unfold labelResult
  split
  · rename_i p hop
    have hp : ClaimsExact s.lu.frameCount s.cu.rebuildTable p.trimming p.retired :=
      h.claims (p.trimming, p.retired) (by rw [hop]; rfl)
    obtain ⟨table, ht⟩ := mapPart_classFrame f ok l { p with returned := p.returned + 1 } s
    have hc := claimsExact_classFrame (f := f) (ok := ok) (l := l) (p := { p with returned := p.returned + 1 }) hp
    dsimp only
    generalize classFrame f ok l { p with returned := p.returned + 1 } s = r at ht hc
    have hfc : r.2.lu.frameCount = s.lu.frameCount := congrArg MapPart.frameCount ht
    have hsm : r.2.sm = s.sm := congrArg MapPart.sm ht
    rw [← hfc] at hc
    have hnow : mapExact { r.2 with cu.operation := .rebuilding r.1 } := by
      rw [mapExact_iff]
      refine ⟨?_, fun c hcl => ?_⟩
      · show SmExact r.2.lu.frameCount r.2.sm
        rw [hfc, hsm]
        exact h.smExact
      · cases hcl
        exact hc
    unfold rebuildTest
    split
    · exact mapExact_finishRebuild hc
    · exact hnow
  all_goals exact h

theorem mapPart_placeLabelReads (s : State) : mapPart (placeLabelReads s) = mapPart s :=
  (mapPart_moving (· = mapPart s)).placeLabelReads rfl

theorem mapExact_startLabelReads (s : State) : mapExact (startLabelReads s) := by
  have hnone : ∀ n, ClaimsExact n [] [] [] := fun n => by simp [ClaimsExact]
  have hfresh : SmExact s.lu.frameCount (initComponent 0 { s with cu.rebuildTable := [] }).sm := smExact_fresh _ _
  unfold startLabelReads
  dsimp only
  split
  · exact mapExact_finishRebuild (hnone _)
  · refine mapExact_of_same ?_ (mapPart_placeLabelReads _)
    rw [mapExact_iff]
    refine ⟨hfresh, fun c hc => ?_⟩
    cases hc
    exact hnone _

/-! ### Every command -/

theorem mapExact_moving : Moving mapExact := by
  have h := mapPart_moving MapPart.Exact
  rwa [← funext fun s => propext (mapExact_iff s)] at h

theorem mapExact_mapped : Mapped mapExact where
  toMoving := mapExact_moving
  createInbound := fun _ _ hg h => mapExact_createEntry h hg (.inr rfl)
  promotionWrite := fun _ _ _ h => by
    unfold promotionWrite
    split
    · exact h
    · exact mapExact_modifyEntry h fun _ => ⟨rfl, rfl, rfl⟩
  promotionFinish := fun _ _ h => mapExact_promotionFinish h
  promotionAbandoned := fun _ _ h => by
    unfold promotionAbandoned
    split
    · exact h
    · split
      · exact mapExact_removeEntry h
      · exact h
  flushRequest := fun _ _ h => by
    unfold flushRequest
    split
    · split
      · exact mapExact_modifyEntry h fun _ => ⟨rfl, rfl, rfl⟩
      · exact h
    · exact h
  flushStart := fun _ _ h => mapExact_flushStart h
  flushDropped := fun _ _ h => by
    unfold flushDropped
    split
    · exact mapExact_modifyEntry h fun _ => ⟨rfl, rfl, rfl⟩
    · exact h
  flushFinish := fun _ _ _ _ h => mapExact_flushFinish h
  flushAbandoned := fun _ _ _ h => mapExact_flushAbandoned h

theorem mapPart_of_tablePart {s t : State} (h : tablePart t = tablePart s) : mapPart t = mapPart s :=
  congrArg (fun x => (⟨x.sm, x.frameCount, x.table, x.classes⟩ : MapPart)) h

theorem mapExact_whole : Whole mapExact where
  toMapped := mapExact_mapped
  steady := fun h ht _ => mapExact_of_same h (mapPart_of_tablePart ht)
  degraded := fun h => mapExact_of_same h (mapPart_bump _ _)
  platterNotice := fun k a h => mapExact_of_same h (mapPart_occur k a _)
  plain := fun h ht => mapExact_of_same h (mapPart_of_tablePart ht)
  settle := fun {s} o ho h => by
    rw [mapExact_iff]
    refine ⟨h.smExact, fun c hc => ?_⟩
    have : classesOf o = some c := hc
    rw [ho] at this
    cases this
  consult := fun _ _ h => by
    unfold consultStreams
    split <;> exact mapExact_of_same h rfl
  clearStreams := fun h => by
    unfold clearStreams
    split
    · exact mapExact_of_same h rfl
    · exact h
  sendNotice := fun n rest _ h => mapExact_of_same h (mapPart_sendNotice n rest _)
  heatUpdate := fun _ _ _ h => mapExact_heatUpdate h
  readHit := fun g e he h => by
    have hg : e.segment = g := by simpa using List.find?_some he
    unfold readHit
    split
    · exact mapExact_toReclaimTail h (by rw [hg]; exact he) ‹_›
    · exact h
  absorbRequest := fun _ h => mapExact_absorbRequest h
  absorbOk := fun _ _ _ h => mapExact_absorbOk h
  absorbError := fun _ _ _ h => mapExact_absorbError h
  absorbWithdrawn := fun _ _ h => mapExact_absorbWithdrawn h
  readError := fun _ _ _ h => mapExact_readError h
  trimEffect := fun _ _ h => mapExact_trimEffect h
  evict := fun _ h => mapExact_evict h
  frameDispatched := fun f h => mapExact_of_sm h rfl (h.smExact.inFlight f _)
  frameReturned := fun _ _ h => mapExact_frameReturned h
  trimResult := fun _ _ h => mapExact_trimResult h
  takeWriteSeq := fun {s} h => by
    have hx := h.smExact
    exact mapExact_of_sm (m := { s.sm with writeSeq := s.sm.writeSeq + 1 }) h rfl { hx with }
  labelResult := fun _ _ _ h => mapExact_labelResult h
  startLabelReads := fun _ _ => mapExact_startLabelReads _

theorem mapExact_loading : Loading mapExact where
  toWhole := mapExact_whole
  writeSeq := fun {s} w h => by
    have hx := h.smExact
    exact mapExact_of_sm (m := { s.sm with writeSeq := w }) h rfl { hx with }
  load := fun _ _ _ hl h => mapExact_load hl (mapExact_of_same h rfl)
  init := fun c h => mapExact_init c h
  reconcile := fun h => mapExact_reconcile h
  configure := fun n p b h => mapExact_freshMap rfl rfl fun c hc => by cases hc
  parameters := fun _ h => mapExact_of_same h rfl
  reset := fun ht => by
    rw [mapExact_iff, mapPart_of_tablePart ht]
    exact ⟨smExact_fresh 0 _, fun c hc => by cases hc⟩

/-- Settles O57: each part by what every command keeps. -/
theorem tablesStayWellFormed : Obligations.TablesStayWellFormed := fun _ _ h =>
  ⟨streamsWf_tabular.loading.step h, candidatesWf_tabular.loading.step h, mapExact_loading.step h⟩

end Sys2Proof.Machine

/-! ## What an event of the Migration Engine leaves alone -/

namespace Sys2Proof.Machine

/-- What no event of the Migration Engine changes: what `calmPart` holds, the streams, the epoch, the orders outstanding and
the levels, and the Platter Monitor's state, watch list and latency window. -/
structure EnginePart where
  calm : CalmPart
  streams : Vector StreamRec 8
  epoch : Nat
  flashOutstanding : List Dispatched
  flashLevel : Nat
  platterOutstanding : List Dispatched
  platterLevel : Nat
  platter : PlatterState
  watch : List WatchRec
  excursion : Nat
  degraded : Bool

/-- The engine part of a state. -/
def enginePart (s : State) : EnginePart :=
  ⟨calmPart s, s.streams, s.hu.epoch, s.fps.outstanding, s.fps.level, s.pps.outstanding, s.pps.level, s.pm.state,
    s.pm.watch, s.pm.excursion, s.pm.degraded⟩

theorem enginePart_bump (k : Counter) (s : State) : enginePart (bump k s) = enginePart s := by
  simp [enginePart]

theorem enginePart_occur (k : NoticeKind) (a : Nat) (s : State) : enginePart (occur k a s) = enginePart s := by
  have hrest : ((occur k a s).fps, (occur k a s).pps, (occur k a s).streams, (occur k a s).hu)
      = (s.fps, s.pps, s.streams, s.hu) :=
    occur_keeps (P := fun u => (u.fps, u.pps, u.streams, u.hu) = (s.fps, s.pps, s.streams, s.hu))
      (fun k _ h => by simpa using h) (fun _ h => h) k a rfl
  simp only [Prod.mk.injEq] at hrest
  obtain ⟨hf, hp, hs, hh⟩ := hrest
  simp only [enginePart, occur_calm, occur_pm, hf, hp, hs, hh]

theorem enginePart_takeCandidate (g : Nat) (s : State) : enginePart (takeCandidate g s).2 = enginePart s := by
  have hc := takeCandidate_calm g s
  have : ∀ {t u : State}, calmPart t = calmPart u → t.streams = u.streams → t.hu.epoch = u.hu.epoch → t.fps = u.fps →
      t.pps = u.pps → t.pm = u.pm → enginePart t = enginePart u := by
    intro t u h1 h2 h3 h4 h5 h6
    simp only [enginePart, h1, h2, h3, h4, h5, h6]
  unfold takeCandidate at hc ⊢
  split at hc
  · exact this hc rfl rfl rfl rfl rfl
  · rfl

/-- A predicate on the engine part is kept by every operation of the Migration Engine and the Segment Map. -/
theorem enginePart_core (R : EnginePart → Prop) : Core fun s => R (enginePart s) where
  touch := fun _ h => h
  bump := fun k _ h => (congrArg R (enginePart_bump k _)).mpr h
  occur := fun k a _ _ h => (congrArg R (enginePart_occur k a _)).mpr h
  monitor := fun {s} m hm h => by
    have : enginePart { s with pm := m } = enginePart s := by
      simp only [enginePart, hm.state, hm.watch, hm.excursion, hm.degraded]
      rfl
    exact (congrArg R this).mpr h
  tracker := fun {s} c hc h => by
    have : enginePart { s with ct := c } = enginePart s := by
      simp only [enginePart, calmPart, hc.tags, hc.arrival]
      rfl
    exact (congrArg R this).mpr h
  held := fun _ h => h
  operation := fun {s} o ho h => by
    have : enginePart { s with cu.operation := o } = enginePart s := by
      simp only [enginePart, calmPart, basePart, ho.kind]
    exact (congrArg R this).mpr h
  flash := fun {s} q hq h => by
    have : enginePart { s with fps := q } = enginePart s := by
      simp only [enginePart, hq.outstanding, hq.level]
      rfl
    exact (congrArg R this).mpr h
  platter := fun {s} q hq h => by
    have : enginePart { s with pps := q } = enginePart s := by
      simp only [enginePart, hq.outstanding, hq.level]
      rfl
    exact (congrArg R this).mpr h
  reissued := fun _ _ _ _ h => h
  moves := fun _ h => h
  map := fun _ h => h
  takeCandidate := fun g h => (congrArg R (enginePart_takeCandidate g _)).mpr h

theorem enginePart_engineEvent (s : State) : enginePart (engineEvent s) = enginePart s :=
  (enginePart_core (· = enginePart s)).mapped.engineEvent rfl

theorem enginePart_withdrawAbsorbs (os : List Order) (s : State) : enginePart (withdrawAbsorbs os s) = enginePart s := by
  unfold withdrawAbsorbs
  induction os generalizing s with
  | nil => rfl
  | cons o os ih =>
    refine (ih _).trans ?_
    dsimp only
    split
    · exact (enginePart_core (· = enginePart s)).absorbWithdrawn _ _ rfl
    · rfl

/-! ### A pass once called for stays called for -/

theorem takeCandidate_ct_pm (g : Nat) (s : State) :
    (takeCandidate g s).2.ct = s.ct ∧ (takeCandidate g s).2.pm = s.pm := by
  unfold takeCandidate
  split <;> exact ⟨rfl, rfl⟩

theorem passDue_core : Core fun s => s.ct.passDue = true where
  touch := fun _ h => h
  bump := fun k _ h => by rw [bump_ct]; exact h
  occur := fun k a _ _ h =>
    occur_keeps (P := fun s => s.ct.passDue = true) (fun k _ h => by rw [bump_ct]; exact h) (fun _ h => h) k a h
  monitor := fun _ _ h => h
  tracker := fun _ hc h => hc.pass h
  held := fun _ h => h
  operation := fun _ _ h => h
  flash := fun _ _ h => h
  platter := fun _ _ h => h
  reissued := fun _ _ _ _ h => h
  moves := fun _ h => h
  map := fun _ h => h
  takeCandidate := fun g h => by rw [(takeCandidate_ct_pm g _).1]; exact h

/-! ### No spin-up is requested outside a stopped period -/

theorem spinUp_core : Core fun s => atRest s.pm.state = false ∧ s.pm.spinUpRequested = false where
  touch := fun _ h => h
  bump := fun k _ h => by rw [bump_pm]; exact h
  occur := fun k a _ _ h => by rw [occur_pm]; exact h
  monitor := fun _ hm h => ⟨hm.state.symm ▸ h.1, (hm.spinUp h.1).trans h.2⟩
  tracker := fun _ _ h => h
  held := fun _ h => h
  operation := fun _ _ h => h
  flash := fun _ _ h => h
  platter := fun _ _ h => h
  reissued := fun _ _ _ _ h => h
  moves := fun _ h => h
  map := fun _ h => h
  takeCandidate := fun g h => by
    rw [(takeCandidate_ct_pm g _).2]
    exact h

/-! ### Set Port Level (R143, R192) -/

theorem sched_setSched_level (p : Port) (level : Nat) (s : State) : (sched p (storeLevel p level s)).level = level := by
  cases p <;> rfl

theorem enginePart_level (p : Port) {s t : State} (h : enginePart t = enginePart s) :
    (sched p t).level = (sched p s).level := by
  cases p
  · exact congrArg EnginePart.flashLevel h
  · exact congrArg EnginePart.platterLevel h

/-- Set Port Level of a byte that names a port. -/
theorem setPortLevel_stores {h : TxnHead} {port level : Byte} {s : State} {p : Port} (hm : mayTake .setPortLevel h s)
    (hp : portOf port = some p) :
    exec (.setPortLevel h port level) s
      = .next (complete (answered 6 h (min 4 level.toNat != level.toNat) (.level (min 4 level.toNat)))
          (engineEvent (storeLevel p (min 4 level.toNat) s))) := by
  refine (transaction_accepted hm _ (badUnless_of_true (by rw [hp]; rfl)) _).trans ?_
  simp only [hp]
  rfl

/-- Settles O21. -/
theorem setPortLevel : Obligations.SetPortLevel := by
  intro h port level s hm
  refine ⟨fun hp => ?_, fun p hp => ?_⟩
  · have hnone : portOf port = none := by
      unfold portOf
      rw [if_neg (by rintro rfl; simp at hp), if_neg (by rintro rfl; simp at hp)]
    exact transaction_refused hm _ (badUnless_of_false (by rw [hnone]; rfl)) _
  · intro l
    have hsome : portOf port = some p := by
      simp only [List.mem_cons, Prod.mk.injEq, List.not_mem_nil, or_false] at hp
      rcases hp with ⟨hp, rfl⟩ | ⟨hp, rfl⟩
      · have : port = 0 := BitVec.eq_of_toNat_eq hp
        subst this
        rfl
      · have : port = 1 := BitVec.eq_of_toNat_eq hp
        subst this
        rfl
    refine ⟨_, setPortLevel_stores hm hsome, ?_⟩
    have hpart := enginePart_engineEvent (storeLevel p l s)
    have hcalm : calmPart (engineEvent (storeLevel p l s)) = calmPart s :=
      (congrArg EnginePart.calm hpart).trans (setSched_calm p _ s)
    obtain ⟨hparams, hcomp, hrc, hmode, hmarker, -, harr⟩ :=
      answered_fields (r := answered 6 h (l != level.toNat) (.level l)) hcalm
    have hout : (storeLevel p l s).fps.outstanding = s.fps.outstanding
        ∧ (storeLevel p l s).pps.outstanding = s.pps.outstanding
        ∧ (p = .flash → (storeLevel p l s).pps.level = s.pps.level)
        ∧ (p = .platter → (storeLevel p l s).fps.level = s.fps.level) := by
      cases p <;> simp [storeLevel, setSched, sched]
    refine ⟨(enginePart_level p hpart).trans (sched_setSched_level p l s), hcomp, fun hp => ?_, fun hp => ?_, ?_, ?_, hmode,
      hmarker, hrc, hparams, harr⟩
    · exact (congrArg EnginePart.platterLevel hpart).trans (hout.2.2.1 hp)
    · exact (congrArg EnginePart.flashLevel hpart).trans (hout.2.2.2 hp)
    · exact (congrArg EnginePart.flashOutstanding hpart).trans hout.1
    · exact (congrArg EnginePart.platterOutstanding hpart).trans hout.2.1

/-! ### Report Spindle (R149, R150, R192) -/

theorem degradeClear_pm (old new : PlatterState) (s : State) : (degradeClear old new s).pm
    = if clearsDegraded old new s.params.degradeClearMask then { s.pm with excursion := 0, degraded := false } else s.pm := by
  unfold degradeClear
  dsimp only
  split
  · split
    · simp
    · rename_i hd
      have hfalse : s.pm.degraded = false := by simpa using hd
      rw [← hfalse]
  · rfl

theorem interruptWatch_pm (old new : PlatterState) (s : State) : (interruptWatch old new s).pm
    = { s.pm with watch := if old = .ready ∧ new ≠ .ready then s.pm.watch.map fun w => { w with interrupted := true }
          else s.pm.watch } := by
  unfold interruptWatch
  simp only [Bool.and_eq_true, decide_eq_true_eq]
  split <;> rfl

/-- What the latency window, the watch list and the state are after an operation that leaves the engine part alone. -/
theorem latency_of_part {s t : State} (h : enginePart t = enginePart s) : t.pm.state = s.pm.state ∧ t.pm.watch = s.pm.watch
    ∧ t.pm.excursion = s.pm.excursion ∧ t.pm.degraded = s.pm.degraded ∧ t.streams = s.streams :=
  ⟨congrArg EnginePart.platter h, congrArg EnginePart.watch h, congrArg EnginePart.excursion h,
    congrArg EnginePart.degraded h, congrArg EnginePart.streams h⟩

theorem stoppedPeriod_part (old new : PlatterState) (s : State) : enginePart (stoppedPeriod old new s) = enginePart s := by
  unfold stoppedPeriod
  split
  · split
    · rfl
    · exact (enginePart_core (· = enginePart s)).spinUpTest rfl
  · rfl

theorem quietTest_part (s : State) : enginePart (quietTest s) = enginePart s :=
  (enginePart_core (· = enginePart s)).quietTest rfl

/-- What a change of the platter state leaves in the Platter Monitor. -/
theorem setPlatter_latency {new : PlatterState} {s : State} (h : new ≠ s.pm.state) :
    (setPlatter new s).pm.state = new ∧ (setPlatter new s).ct.passDue = true
      ∧ (setPlatter new s).pm.watch
        = (if s.pm.state = .ready then s.pm.watch.map fun w => { w with interrupted := true } else s.pm.watch)
      ∧ (setPlatter new s).pm.excursion
        = (if clearsDegraded s.pm.state new s.params.degradeClearMask then 0 else s.pm.excursion)
      ∧ (setPlatter new s).pm.degraded
        = (if clearsDegraded s.pm.state new s.params.degradeClearMask then false else s.pm.degraded) := by
  unfold setPlatter
  rw [if_neg h]
  dsimp only
  generalize hs1 : ({ s with pm.state := new, pm.quietArmed := s.pm.quietArmed || new == .ready } : State) = s1
  have hparams : (stoppedPeriod s.pm.state new (interruptWatch s.pm.state new s1)).params = s.params := by
    have h1 := congrArg (fun p => p.calm.base.params) (stoppedPeriod_part s.pm.state new (interruptWatch s.pm.state new s1))
    have h2 : (interruptWatch s.pm.state new s1).params = s1.params := by unfold interruptWatch; split <;> rfl
    exact h1.trans (h2.trans (by rw [← hs1]))
  have hinter := interruptWatch_pm s.pm.state new s1
  obtain ⟨hst, hw, hx, hd, -⟩ := latency_of_part (stoppedPeriod_part s.pm.state new (interruptWatch s.pm.state new s1))
  rw [hinter] at hst hw hx hd
  have hclear := degradeClear_pm s.pm.state new (stoppedPeriod s.pm.state new (interruptWatch s.pm.state new s1))
  rw [hparams] at hclear
  generalize stoppedPeriod s.pm.state new (interruptWatch s.pm.state new s1) = u at hst hw hx hd hclear
  obtain ⟨qst, qw, qx, qd, -⟩ := latency_of_part (quietTest_part (degradeClear s.pm.state new u))
  have hpm : ∀ v : State, (callPass (if new = .stopped then streamEvent .stopped v else v)).pm = v.pm := by
    intro v
    split
    · exact (streamEvent_frame .stopped v).2.2.2.2.2.2.2.2.1
    · rfl
  have hsub : s1.pm.state = new ∧ s1.pm.watch = s.pm.watch ∧ s1.pm.excursion = s.pm.excursion
      ∧ s1.pm.degraded = s.pm.degraded := by
    rw [← hs1]
    exact ⟨rfl, rfl, rfl, rfl⟩
  rw [hpm, qst, qw, qx, qd, hclear]
  have hcond : (s.pm.state = .ready ∧ new ≠ .ready) ↔ s.pm.state = .ready :=
    ⟨And.left, fun hr => ⟨hr, fun hn => h (hn.trans hr.symm)⟩⟩
  simp only [hcond, hsub] at hst hw hx hd
  refine ⟨?_, rfl, ?_, ?_, ?_⟩ <;> split <;> simp [hst, hw, hx, hd]

theorem setPlatter_spinUp {new : PlatterState} {s : State} (h : new ≠ s.pm.state) (hr : atRest new = false) :
    (setPlatter new s).pm.spinUpRequested = false := by
  unfold setPlatter
  rw [if_neg h]
  dsimp only
  have hstop : ∀ u : State, (stoppedPeriod s.pm.state new u).pm.spinUpRequested = false := by
    intro u
    unfold stoppedPeriod
    rw [if_neg (by simp [hr])]
  generalize interruptWatch s.pm.state new _ = u
  have hclear : (degradeClear s.pm.state new (stoppedPeriod s.pm.state new u)).pm.spinUpRequested = false := by
    rw [degradeClear_pm]
    split <;> exact hstop u
  rw [if_neg (by rintro rfl; simp [atRest] at hr)]
  unfold quietTest
  split <;> exact hclear

theorem setPlatter_stopped {s : State} (h : .stopped ≠ s.pm.state) (hmask : s.params.streamClearMask.getLsbD 0 = true)
    (i : Fin 8) : (setPlatter .stopped s).streams[i].valid = false := by
  have hcalm := setPlatter_calm .stopped s
  unfold setPlatter at hcalm ⊢
  rw [if_neg h] at hcalm ⊢
  dsimp only at hcalm ⊢
  generalize quietTest _ = u at hcalm ⊢
  rw [if_pos rfl] at hcalm ⊢
  have hparams : u.params = s.params := by
    have h1 : (callPass (streamEvent .stopped u)).params = s.params := congrArg (fun c => c.base.params) hcalm
    have h2 : (streamEvent .stopped u).params = u.params := (streamEvent_frame .stopped u).2.2.2.2.2.2.2.2.2.2.1
    exact h2.symm.trans h1
  have hsel : streamEvent .stopped u = clearStreams u := streamEvent_selected (by rw [hparams]; exact hmask)
  show (streamEvent .stopped u).streams[i].valid = false
  rw [hsel]
  exact clearStreams_invalid u i

/-- Report Spindle of a byte that names a state. -/
theorem reportSpindle_taken {h : TxnHead} {b : Byte} {s : State} {new : PlatterState} (hm : mayTake .reportSpindle h s)
    (hb : platterStateOf b = some new) :
    exec (.reportSpindle h b) s = .next (complete (answered 5 h false .none)
      (if new = s.pm.state then s else engineEvent (setPlatter new s))) := by
  refine (transaction_accepted hm _ (badUnless_of_true (by rw [hb]; rfl)) _).trans ?_
  simp only [hb]
  rfl

theorem platterStateOf_code {b : Byte} {new : PlatterState}
    (h : (b.toNat, new) ∈ [(0, .stopped), (1, .starting), (2, .ready), (3, .stopping), (4, .parked)]) :
    platterStateOf b = some new := by
  have hcode : ∀ n : Nat, b.toNat = n → n < 256 → b = BitVec.ofNat 8 n := fun n hn hlt =>
    BitVec.eq_of_toNat_eq (by rw [hn, BitVec.toNat_ofNat, Nat.mod_eq_of_lt hlt])
  simp only [List.mem_cons, Prod.mk.injEq, List.not_mem_nil, or_false] at h
  rcases h with ⟨h, rfl⟩ | ⟨h, rfl⟩ | ⟨h, rfl⟩ | ⟨h, rfl⟩ | ⟨h, rfl⟩ <;> rw [hcode _ h (by omega)] <;> rfl

theorem clearsDegraded_iff (old new : PlatterState) (mask : BitVec 2) : clearsDegraded old new mask = true ↔
    new = .ready ∧ ((old = .starting ∧ mask.getLsbD 0 = true) ∨ (old = .parked ∧ mask.getLsbD 1 = true)) := by
  simp [clearsDegraded]

/-- Settles O20: the change within the monitor, which the event of the Migration Engine leaves alone. -/
theorem reportSpindle : Obligations.ReportSpindle := by
  intro h b s hm
  refine ⟨fun hb => ?_, fun new hb => ⟨fun hsame => ?_, ?_⟩⟩
  · have hnone : platterStateOf b = none := by
      have hne : ∀ k : Byte, k.toNat < 5 → b ≠ k := fun k hk he => by rw [he] at hb; omega
      unfold platterStateOf
      rw [if_neg (hne 0 (by decide)), if_neg (hne 1 (by decide)), if_neg (hne 2 (by decide)), if_neg (hne 3 (by decide)),
        if_neg (hne 4 (by decide))]
    exact transaction_refused hm _ (badUnless_of_false (by rw [hnone]; rfl)) _
  · rw [reportSpindle_taken hm (platterStateOf_code hb), if_pos hsame]
    rfl
  · intro selected hne
    refine ⟨_, reportSpindle_taken hm (platterStateOf_code hb), ?_⟩
    rw [if_neg hne]
    obtain ⟨hst, hpass, hw, hx, hd⟩ := setPlatter_latency hne
    have hpart := enginePart_engineEvent (setPlatter new s)
    obtain ⟨est, ew, ex, ed, estr⟩ := latency_of_part hpart
    obtain ⟨hparams, hcomp, hrc, hmode, hmarker, -, harr⟩ :=
      answered_fields (r := answered 5 h false .none) ((congrArg EnginePart.calm hpart).trans (setPlatter_calm new s))
    have hselected : selected ↔ clearsDegraded s.pm.state new s.params.degradeClearMask = true := (clearsDegraded_iff _ _ _).symm
    refine ⟨est.trans hst, passDue_core.mapped.engineEvent hpass, hcomp, ew.trans hw, fun h1 h2 => ?_, fun h1 h2 i => ?_,
      fun h1 => ?_, fun h1 => ?_, hmode, hmarker, hrc, hparams, harr⟩
    · have hr : atRest new = false := by simp [atRest, h1, h2]
      exact (spinUp_core.mapped.engineEvent ⟨hst.symm ▸ hr, setPlatter_spinUp hne hr⟩).2
    · subst h1
      show (engineEvent (setPlatter .stopped s)).streams[i].valid = false
      rw [estr]
      exact setPlatter_stopped hne h2 i
    · rw [if_pos (hselected.1 h1)] at hx hd
      exact ⟨ex.trans hx, ed.trans hd⟩
    · rw [if_neg (mt hselected.2 h1)] at hx hd
      exact ⟨ex.trans hx, ed.trans hd⟩

end Sys2Proof.Machine

/-! ## The Link Reset -/

namespace Sys2Proof.Machine

/-- No tag slot is occupied, each keeps a given use number, the Arrival List is empty, and nothing stands in a Foreground
queue. -/
structure LinkQuiet (useNos : Fin 32 → BitVec 16) (s : State) : Prop where
  slots : ∀ tag : Fin 32, s.ct.slots[tag] = ⟨useNos tag, none⟩
  arrival : s.ct.arrival = []
  flash : s.fps.foreground = []
  platter : s.pps.foreground = []

/-- A slot that agrees in use number and occupancy with a free slot is that slot. -/
theorem freed_of_tags {v w : Vector TagSlot 32} {useNo : BitVec 16} {tag : Fin 32} (h : tagsOf v = tagsOf w)
    (hw : w[tag] = ⟨useNo, none⟩) : v[tag] = ⟨useNo, none⟩ := by
  have h1 : (tagsOf v)[tag.val]? = (tagsOf w)[tag.val]? := by rw [h]
  have hw1 : w[tag.val] = ⟨useNo, none⟩ := hw
  simp only [tagsOf, List.getElem?_map, Vector.getElem?_toList, Vector.getElem?_eq_getElem tag.isLt, Option.map_some,
    Option.some.injEq, Prod.mk.injEq, hw1] at h1
  show v[tag.val] = _
  cases hv : v[tag.val]
  simp_all

/-- Slots that agree in use number and occupancy with slots that are all free are those slots. -/
theorem slots_of_tags {v w : Vector TagSlot 32} {useNos : Fin 32 → BitVec 16} (h : tagsOf v = tagsOf w)
    (hw : ∀ tag : Fin 32, w[tag] = ⟨useNos tag, none⟩) (tag : Fin 32) : v[tag] = ⟨useNos tag, none⟩ :=
  freed_of_tags h (hw tag)

theorem linkQuiet_core (useNos : Fin 32 → BitVec 16) : Core (LinkQuiet useNos) where
  touch := fun _ h => ⟨h.slots, h.arrival, h.flash, h.platter⟩
  bump := fun k _ h => ⟨by rw [bump_ct]; exact h.slots, by rw [bump_ct]; exact h.arrival, by rw [bump_fps]; exact h.flash,
    by rw [bump_pps]; exact h.platter⟩
  occur := fun k a _ _ h => occur_keeps (P := LinkQuiet useNos)
    (fun k _ h => ⟨by rw [bump_ct]; exact h.slots, by rw [bump_ct]; exact h.arrival, by rw [bump_fps]; exact h.flash,
      by rw [bump_pps]; exact h.platter⟩)
    (fun _ h => ⟨h.slots, h.arrival, h.flash, h.platter⟩) k a h
  monitor := fun _ _ h => ⟨h.slots, h.arrival, h.flash, h.platter⟩
  tracker := fun _ hc h => ⟨slots_of_tags hc.tags h.slots, hc.arrival.trans h.arrival, h.flash, h.platter⟩
  held := fun _ h => ⟨h.slots, h.arrival, h.flash, h.platter⟩
  operation := fun _ _ h => ⟨h.slots, h.arrival, h.flash, h.platter⟩
  flash := fun {s} q hq h => ⟨h.slots, h.arrival, List.eq_nil_of_length_eq_zero (by
    have := hq.foreground
    rw [h.flash] at this
    simpa using this), h.platter⟩
  platter := fun {s} q hq h => ⟨h.slots, h.arrival, h.flash, List.eq_nil_of_length_eq_zero (by
    have := hq.foreground
    rw [h.platter] at this
    simpa using this)⟩
  reissued := fun {s} tag o hs _ h => by
    have : commandOf tag s = none := congrArg TagSlot.command (h.slots tag)
    rw [this] at hs
    cases hs
  moves := fun _ h => ⟨h.slots, h.arrival, h.flash, h.platter⟩
  map := fun _ h => ⟨h.slots, h.arrival, h.flash, h.platter⟩
  takeCandidate := fun g h => by
    unfold takeCandidate
    split
    · exact ⟨h.slots, h.arrival, h.flash, h.platter⟩
    · exact h

theorem linkQuiet_withdrawAbsorbs {useNos : Fin 32 → BitVec 16} (os : List Order) {s : State} (h : LinkQuiet useNos s) :
    LinkQuiet useNos (withdrawAbsorbs os s) := by
  unfold withdrawAbsorbs
  induction os generalizing s with
  | nil => exact h
  | cons o os ih =>
    refine ih ?_
    dsimp only
    split
    · exact (linkQuiet_core useNos).absorbWithdrawn _ _ h
    · exact h

theorem linkQuiet_dropForeground {useNos : Fin 32 → BitVec 16} {s : State}
    (hs : ∀ tag : Fin 32, s.ct.slots[tag] = ⟨useNos tag, none⟩) (ha : s.ct.arrival = []) :
    LinkQuiet useNos (dropForeground s) := by
  have h := (linkQuiet_core useNos).reportWork (s := { s with fps.foreground := [], pps.foreground := [] })
    ⟨hs, ha, rfl, rfl⟩
  unfold dropForeground
  dsimp only
  split
  · exact (linkQuiet_core useNos).callPass h
  · exact h

theorem freeAllSlots_slots (s : State) (tag : Fin 32) :
    (freeAllSlots s).ct.slots[tag] = ⟨s.ct.slots[tag].useNo, none⟩ := by
  simp [freeAllSlots]

/-- What a Link Reset keeps of the engine part. -/
def EnginePart.linkKept (p : EnginePart) : List Dispatched × List Dispatched × List Completion × BasePart × Nat :=
  (p.flashOutstanding, p.platterOutstanding, p.calm.completions, p.calm.base, p.epoch)

theorem linkKept_freeAllSlots (s : State) :
    (enginePart (freeAllSlots (bump .linkResets s))).linkKept = (enginePart s).linkKept := by
  have hbase : basePart (freeAllSlots (bump .linkResets s)) = basePart s :=
    (freeAllSlots_base _).trans (congrArg CalmPart.base (bump_calm _ s))
  simp only [EnginePart.linkKept, enginePart, calmPart, hbase]
  simp only [freeAllSlots, bump_fps, bump_pps, bump_lu, bump_hu]

theorem linkKept_streamEvent (e : ClearEvent) (s : State) :
    (enginePart (streamEvent e s)).linkKept = (enginePart s).linkKept := by
  obtain ⟨fhu, -, -, -, -, ffps, fpps, -⟩ := streamEvent_frame e s
  simp only [EnginePart.linkKept, enginePart, streamEvent_calm, fhu, ffps, fpps]

/-- Settles O13: the slots and the Foreground queues are empty before the absorbs are withdrawn, and neither their withdrawal nor
the event of the Migration Engine fills them. -/
theorem linkResetFreesSlots : Obligations.LinkResetFreesSlots := by
  intro s hu
  refine ⟨linkResetEffect s, by show Host.Outcome.next _ = _; unfold onLinkInOrder; rw [hu]; rfl, ?_⟩
  unfold linkResetEffect
  dsimp only
  generalize hs1 : freeAllSlots (bump .linkResets s) = s1
  generalize queuedAbsorbs s1 = os
  have hslots : ∀ tag : Fin 32, s1.ct.slots[tag] = ⟨s.ct.slots[tag].useNo, none⟩ := fun tag => by
    rw [← hs1, freeAllSlots_slots, bump_ct]
  have harr : s1.ct.arrival = [] := by rw [← hs1]; rfl
  generalize hs2 : withdrawAbsorbs os (dropForeground s1) = s2
  have hq2 : LinkQuiet (fun tag => s.ct.slots[tag].useNo) s2 :=
    hs2 ▸ linkQuiet_withdrawAbsorbs os (linkQuiet_dropForeground hslots harr)
  have hp2 : enginePart s2 = enginePart s1 :=
    hs2 ▸ (enginePart_withdrawAbsorbs os _).trans ((enginePart_core (· = enginePart s1)).dropForeground rfl)
  obtain ⟨-, -, -, fct, -, ffps, fpps, -⟩ := streamEvent_frame .linkReset (withdrawYields s2)
  have hq3 : LinkQuiet (fun tag => s.ct.slots[tag].useNo) (streamEvent .linkReset (withdrawYields s2)) := by
    refine ⟨?_, ?_, ?_, ?_⟩
    · rw [fct]; exact hq2.slots
    · rw [fct]; exact hq2.arrival
    · rw [ffps]; exact hq2.flash
    · rw [fpps]; exact hq2.platter
  have hq := (linkQuiet_core _).mapped.engineEvent hq3
  have hp := enginePart_engineEvent (streamEvent .linkReset (withdrawYields s2))
  have hkept2 : (enginePart (withdrawYields s2)).linkKept = (enginePart s).linkKept :=
    calc (enginePart s2).linkKept = (enginePart s1).linkKept := congrArg _ hp2
      _ = (enginePart s).linkKept := hs1 ▸ linkKept_freeAllSlots s
  have hkept : (enginePart (engineEvent (streamEvent .linkReset (withdrawYields s2)))).linkKept = (enginePart s).linkKept :=
    (congrArg _ hp).trans ((linkKept_streamEvent _ _).trans hkept2)
  have hstreams := congrArg EnginePart.streams hp
  generalize engineEvent (streamEvent .linkReset (withdrawYields s2)) = t at hq hkept hstreams ⊢
  simp only [EnginePart.linkKept, enginePart, calmPart, Prod.mk.injEq] at hkept
  obtain ⟨hfo, hpo, hcomp, hbase, hepoch⟩ := hkept
  refine ⟨hq.slots, hq.arrival, hq.flash, hq.platter, hfo, hpo, hcomp, congrArg BasePart.mode hbase,
    congrArg BasePart.marker hbase, congrArg BasePart.frameCount hbase, congrArg BasePart.rc hbase,
    congrArg BasePart.params hbase, hepoch, fun hmask i => ?_⟩
  have hparams : (withdrawYields s2).params = s.params := congrArg (fun x => x.2.2.2.1.params) hkept2
  have hsel : streamEvent .linkReset (withdrawYields s2) = clearStreams (withdrawYields s2) :=
    streamEvent_selected (by rw [hparams]; exact hmask)
  have hi : t.streams[i] = (streamEvent .linkReset (withdrawYields s2)).streams[i] := congrArg (fun v => v[i]) hstreams
  rw [hi, hsel]
  exact clearStreams_invalid _ i

end Sys2Proof.Machine

/-! ## The Migration Engine with nothing active -/

namespace Sys2Proof.Machine

/-! ### Without an active move no chunk moves -/

theorem startChunk_none {s : State} (h : s.me.active = none) : startChunk s = s := by
  unfold startChunk
  rw [h]

theorem placeWrite_none {s : State} (h : s.me.active = none) : placeWrite s = s := by
  unfold placeWrite
  rw [h]

theorem pumpChunks_none {s : State} (h : s.me.active = none) : pumpChunks s = s := by
  unfold pumpChunks
  split
  · rfl
  · simp only [placeWrite_none h, startChunk_none h]

theorem modifyActive_none {s : State} (h : s.me.active = none) (f : Move → Move) : modifyActive f s = s := by
  have hme : ({ s.me with active := s.me.active.map f } : MigrationEngine) = s.me := by rw [h, Option.map_none, ← h]
  show { s with me := { s.me with active := s.me.active.map f } } = s
  rw [hme]

theorem pauseTest_none {s : State} (h : s.me.active = none) : pauseTest s = s := by
  unfold pauseTest
  split
  · exact modifyActive_none h _
  · rfl

theorem preemptTest_none {s : State} (h : s.me.active = none) : preemptTest s = s := by
  unfold preemptTest
  rw [h]

/-! ### With the platter not READY no move begins -/

theorem eligible_not_ready {s : State} (h : s.pm.state ≠ .ready) (m : Move) : eligible m s = false := by
  have : (s.pm.state == PlatterState.ready) = false := by simpa using h
  simp [eligible, this]

theorem firstEligible_not_ready {s : State} (h : s.pm.state ≠ .ready) : firstEligible s = none :=
  List.find?_eq_none.2 fun m _ => by simp [eligible_not_ready h m]

theorem flushCheck_not_ready {s : State} (h : s.pm.state ≠ .ready) : flushCheck s = s := by
  have : (s.pm.state == PlatterState.ready) = false := by simpa using h
  unfold flushCheck
  rw [if_neg (by simp [this])]

theorem arbiter_idle {s : State} (ha : s.me.active = none) (hs : s.me.stack = []) (h : s.pm.state ≠ .ready) (fuel : Nat) :
    arbiter fuel s = s := by
  cases fuel with
  | zero => rfl
  | succ fuel =>
    unfold arbiter
    rw [ha, hs, firstEligible_not_ready h]
    rfl

theorem urgentCheck_not_urgent {s : State} (h : s.me.urgent = false) : urgentCheck s = s := by
  unfold urgentCheck
  rw [if_neg (by simp [h])]

/-! ### The engine idle -/

/-- No move is active or suspended, and the platter is not READY. -/
structure EngineIdle (s : State) : Prop where
  active : s.me.active = none
  stack : s.me.stack = []
  platter : s.pm.state ≠ .ready

theorem EngineIdle.of_fields {s t : State} (h : EngineIdle s) (ha : t.me.active = s.me.active)
    (hs : t.me.stack = s.me.stack) (hp : t.pm.state = s.pm.state) : EngineIdle t :=
  ⟨ha.trans h.active, hs.trans h.stack, hp ▸ h.platter⟩

/-- What a report to the work view leaves of the moves. -/
theorem reportWork_me (s : State) : (reportWork s).me = s.me := by
  have h := reportWork_work s
  exact congrArg WorkPart.me h

theorem occur_me (k : NoticeKind) (a : Nat) (s : State) : (occur k a s).me = s.me :=
  congrArg WorkPart.me (occur_work k a s)

theorem releaseWhere_me (test : Fin 32 → Command → Piece → Bool) (s : State) : (releaseWhere test s).me = s.me := by
  unfold releaseWhere
  split
  · rw [callPass_me, mapPieces_me]
  · rfl

/-- Without a piece held by a yield request no release changes anything. -/
theorem releaseYields_none {s : State} (h : noYieldHeld s) : releaseYields s = s := by
  unfold releaseYields releaseWhere
  refine if_neg ?_
  unfold anyReleased
  simp only [List.any_eq_true, not_exists, not_and]
  intro tag _ hc
  split at hc
  · rename_i c hcmd
    obtain ⟨p, hp, hheld⟩ := List.any_eq_true.1 hc
    have := h tag c hcmd p hp
    simp_all
  · cases hc

/-- An event of the idle engine: the request check of urgent mode, and the release of the pieces that yields hold. -/
theorem engineEvent_idle {s : State} (h : EngineIdle (if engineTests s then urgentCheck s else s)) :
    engineEvent s = if inReset s then s else releaseYields (if engineTests s then urgentCheck s else s) := by
  have hchecks : engineChecks s = if engineTests s then urgentCheck s else s := by
    unfold engineChecks
    split
    · rename_i ht
      rw [if_pos ht] at h
      dsimp only
      rw [flushCheck_not_ready h.platter]
      split
      · rfl
      · rw [preemptTest_none h.active, arbiter_idle h.active h.stack h.platter]
    · rfl
  unfold engineEvent
  split
  · rfl
  · rw [hchecks, pumpChunks_none h.active, pauseTest_none h.active]

theorem EngineIdle.of_atRest {s : State} (h : engineAtRest s) : EngineIdle s := by
  obtain ⟨ha, -, hs, -, -, -, hp, -⟩ := h
  exact ⟨ha, hs, hp⟩

/-- An event of the engine at rest changes nothing. -/
theorem engineEvent_atRest {s : State} (h : engineAtRest s) : engineEvent s = s := by
  obtain ⟨ha, -, hs, -, -, hu, hp, hy⟩ := h
  have hcheck : (if engineTests s then urgentCheck s else s) = s := by rw [urgentCheck_not_urgent hu, ite_self]
  rw [engineEvent_idle (by rw [hcheck]; exact ⟨ha, hs, hp⟩), hcheck, releaseYields_none hy, ite_self]

/-! ### Go Online (R194, R109) -/

theorem compareDirty_low {s : State} (hu : s.me.urgent = false) (hd : s.sm.dirtyCount < s.params.dirtyHigh) :
    compareDirty s = s := by
  unfold compareDirty
  split
  · rw [if_neg (by simp; omega), if_neg (by simp [hu])]
  · rfl

theorem compareDirty_high {s : State} (ht : engineTests s = true) (hu : s.me.urgent = false)
    (hd : s.params.dirtyHigh ≤ s.sm.dirtyCount) :
    compareDirty s = occur .dirtyHigh s.sm.dirtyCount { s with me.urgent := true } := by
  unfold compareDirty
  rw [if_pos ht, if_pos (by simp [hu, hd])]

theorem flushRequest_me (g : Nat) (number : Byte) (s : State) : (flushRequest g number s).2.me = s.me := by
  unfold flushRequest
  split
  · split <;> rfl
  · rfl

/-- An URGENT request to an engine without moves keeps it idle and urgent. -/
theorem urgentCheck_without_moves {s : State} (hi : EngineIdle s) (hq : s.me.queue = []) :
    EngineIdle (urgentCheck s) ∧ (urgentCheck s).me.urgent = s.me.urgent := by
  have hmoves : allMoves s = [] := by simp [allMoves, hi.active, hi.stack, hq]
  have hme : (urgentCheck s).me.active = none ∧ (urgentCheck s).me.stack = [] ∧ (urgentCheck s).me.urgent = s.me.urgent := by
    unfold urgentCheck
    split
    · split
      · rename_i seg _
        unfold requestMove
        split
        · exact ⟨hi.active, hi.stack, rfl⟩
        · have hnone : moveOf seg s = none := by simp [moveOf, hmoves]
          have hroom : makeRoom (levelOf .urgent) s = (true, s) := by simp [makeRoom, queueFull, hq]
          simp only [hnone, makeMove, hroom, isFlush, if_true]
          have hflush := flushRequest_me seg (nextNumber s) s
          generalize flushRequest seg (nextNumber s) s = r at hflush
          obtain ⟨b, t⟩ := r
          cases b
          · exact ⟨hflush ▸ hi.active, hflush ▸ hi.stack, congrArg MigrationEngine.urgent hflush⟩
          · simp only [addMove, reportWork_me]
            exact ⟨hflush ▸ hi.active, hflush ▸ hi.stack, congrArg MigrationEngine.urgent hflush⟩
      · exact ⟨hi.active, hi.stack, rfl⟩
    · exact ⟨hi.active, hi.stack, rfl⟩
  have hpm : enginePart (urgentCheck s) = enginePart s := (enginePart_core (· = enginePart s)).mapped.urgentCheck rfl
  exact ⟨⟨hme.1, hme.2.1, fun hr => hi.platter ((congrArg EnginePart.platter hpm).symm.trans hr)⟩, hme.2.2⟩

theorem goOnline_taken {h : TxnHead} {s : State} (hm : mayTake .goOnline h s) :
    exec (.goOnline h) s = .next (complete (answered 10 h false .none)
      (engineEvent (compareDirty { s with lu.mode := .online }))) :=
  (transaction_accepted hm _ rfl _).trans rfl

theorem marker_of_mayTake {k : TxnKind} {h : TxnHead} {s : State} (hm : mayTake k h s)
    (hk : k ≠ .reportSpindle ∧ k ≠ .readStatus) : s.lu.marker ≠ .resetEngine := by
  intro hr
  rcases hm.2.1 hr with h | h
  · exact hk.1 h
  · exact hk.2 h

/-- Settles O22. -/
theorem goOnline : Obligations.GoOnline := by
  intro h s hm
  refine ⟨fun hrest hd => ?_, _, goOnline_taken hm, ?_⟩
  · rw [goOnline_taken hm]
    obtain ⟨-, -, -, -, -, hu, -⟩ := id hrest
    rw [compareDirty_low (s := { s with lu.mode := .online }) hu hd, engineEvent_atRest (s := { s with lu.mode := .online }) hrest]
    rfl
  · have hcalm : calmPart (engineEvent (compareDirty { s with lu.mode := .online }))
        = calmPart { s with lu.mode := .online } := by
      exact (engineEvent_calm _).trans (compareDirty_calm _)
    obtain ⟨hparams, hcomp, hrc, hmode, hmarker, hfc, harr⟩ := answered_fields (r := answered 10 h false .none) hcalm
    refine ⟨hmode, hcomp, hmarker, fun hq hs ha hu hp hd => ?_, hfc, hrc, hparams, harr⟩
    have hnr : s.lu.marker ≠ .resetEngine := marker_of_mayTake hm (by decide)
    have htests : engineTests { s with lu.mode := .online } = true := by simp [engineTests, inReset, hnr]
    rw [compareDirty_high htests hu hd]
    generalize hu1 : occur .dirtyHigh s.sm.dirtyCount { { s with lu.mode := .online } with me.urgent := true } = u
    have hme : u.me = { s.me with urgent := true } := by rw [← hu1, occur_me]
    have hpm : u.pm = s.pm := by rw [← hu1, occur_pm]
    have hidle : EngineIdle u := ⟨by rw [hme]; exact ha, by rw [hme]; exact hs, by rw [hpm]; exact hp⟩
    obtain ⟨hi, hurgent⟩ := urgentCheck_without_moves hidle (by rw [hme]; exact hq)
    have hu' : u.me.urgent = true := by rw [hme]
    have hcase : EngineIdle (if engineTests u then urgentCheck u else u)
        ∧ (if engineTests u then urgentCheck u else u).me.urgent = true := by
      split
      · exact ⟨hi, hurgent.trans hu'⟩
      · exact ⟨hidle, hu'⟩
    show (engineEvent u).me.urgent = true
    rw [engineEvent_idle hcase.1]
    split
    · exact hu'
    · unfold releaseYields
      rw [releaseWhere_me]
      exact hcase.2

/-! ### Prefetch (R106, R196) -/

theorem occur_ct (k : NoticeKind) (a : Nat) (s : State) : (occur k a s).ct = s.ct :=
  occur_keeps (P := fun u => u.ct = s.ct) (fun k _ h => by rw [bump_ct]; exact h) (fun _ h => h) k a rfl

theorem reportWork_ct (s : State) : (reportWork s).ct = s.ct := by
  have hspin : ∀ u : State, (spinUpTest u).ct = u.ct := fun u => by
    unfold spinUpTest
    split
    · exact occur_ct _ _ _
    · rfl
  have hquiet : ∀ u : State, (quietTest u).ct = u.ct := fun u => by
    unfold quietTest
    split <;> rfl
  unfold reportWork
  split
  · rfl
  · dsimp only
    split <;> split
    · exact (hquiet _).trans (hspin _)
    · exact hquiet _
    · exact hspin _
    · rfl

theorem prefetch_taken {h : TxnHead} {start : BitVec 64} {count : Byte} {s : State} (hm : mayTake .prefetch h s) :
    exec (.prefetch h start count) s = .next (complete
      (answered 12 h (max 1 (min 64 count.toNat) != count.toNat)
        (.count (prefetchAll start.toNat (max 1 (min 64 count.toNat)) s).1))
      (engineEvent (prefetchAll start.toNat (max 1 (min 64 count.toNat)) s).2)) :=
  (transaction_accepted hm _ rfl _).trans rfl

theorem prefetchAll_beyond {start n : Nat} {s : State} (h : lastSegment s < start) : prefetchAll start n s = (0, s) := by
  have hone : ∀ segs : List Nat, (∀ g ∈ segs, lastSegment s < g) → segs.foldl prefetchOne (0, s) = (0, s) := by
    intro segs
    induction segs with
    | nil => exact fun _ => rfl
    | cons g gs ih =>
      intro hg
      have hskip : prefetchOne (0, s) g = (0, s) := by
        unfold prefetchOne
        simp [hg g List.mem_cons_self]
      rw [List.foldl_cons, hskip]
      exact ih fun x hx => hg x (List.mem_cons_of_mem _ hx)
  refine hone _ fun g hg => ?_
  obtain ⟨i, -, rfl⟩ := List.mem_map.1 hg
  omega

/-- The state in which the engine at rest has taken a move of a segment into its queue. -/
def withMove (kind : MoveKind) (segment : Nat) (s : State) : State :=
  reportWork { s with
    me.queue := [newMove (s.me.lastNumber + 1) kind segment]
    me.lastNumber := s.me.lastNumber + 1 }

theorem requestMove_without_moves {segment : Nat} {kind : MoveKind} {s : State} (hmoves : allMoves s = [])
    (hq : s.me.queue = []) (ht : engineTests s = true) (hk : isFlush kind = false) :
    requestMove segment kind s = (true, withMove kind segment s) := by
  have hnone : moveOf segment s = none := by simp [moveOf, hmoves]
  have hroom : makeRoom (levelOf kind) s = (true, s) := by simp [makeRoom, queueFull, hq]
  have hnumber : nextNumber s = s.me.lastNumber + 1 := by simp [nextNumber, hmoves, freeNumber]
  unfold requestMove
  simp only [ht, Bool.not_true, Bool.false_eq_true, if_false, hnone, makeMove, hroom, hk, hnumber]
  simp only [addMove, hq, enqueue, newMove, withMove]

theorem prefetchAll_one {start : Nat} {s : State} (h : engineAtRest s) (ht : engineTests s = true)
    (hin : start ≤ lastSegment s) (hby : (evaluate start s).action ≠ .bypass) (hno : lookup start s = none) :
    prefetchAll start 1 s = (1, withMove .directed start s) := by
  obtain ⟨ha, hq, hs, -⟩ := h
  have hreq := requestMove_without_moves (segment := start) (kind := .directed) (s := s)
    (by simp [allMoves, ha, hq, hs]) hq ht rfl
  have hby' : ((evaluate start s).action == VerdictAction.bypass) = false := by simpa using hby
  simp [prefetchAll, prefetchOne, hreq, hno, hby', Nat.not_lt.2 hin]

theorem noYieldHeld_of_ct {s t : State} (h : noYieldHeld s) (hct : t.ct = s.ct) : noYieldHeld t := by
  intro tag c hc
  unfold commandOf at hc
  rw [hct] at hc
  exact h tag c hc

/-- Settles O24. -/
theorem prefetch : Obligations.Prefetch := by
  intro h start count s hm hrest
  refine ⟨fun hlast => ?_, fun hone hin hby hno => ⟨_, prefetch_taken hm, ?_⟩⟩
  · rw [prefetch_taken hm, prefetchAll_beyond hlast, engineEvent_atRest hrest]
    rfl
  · subst hone
    have hnr : s.lu.marker ≠ .resetEngine := marker_of_mayTake hm (by decide)
    have ht : engineTests s = true := by
      have hmode : s.lu.mode ∈ [EngineMode.online, EngineMode.saving] := hm.2.2.2.1
      rcases List.mem_cons.1 hmode with hmode | hmode
      · simp [engineTests, inReset, hmode, hnr]
      · simp [engineTests, inReset, List.mem_singleton.1 hmode, hnr]
    have hcount : max 1 (min 64 (1 : Byte).toNat) = 1 := by decide
    rw [hcount, prefetchAll_one hrest ht hin hby hno]
    dsimp only
    obtain ⟨ha, hq, hs, -, -, hu, hp, hy⟩ := id hrest
    generalize hw : withMove .directed start.toNat s = u
    have hwork : workPart u = workPart { s with
        me.queue := [newMove (s.me.lastNumber + 1) .directed start.toNat]
        me.lastNumber := s.me.lastNumber + 1 } := hw ▸ reportWork_work _
    have hme : u.me = { s.me with
        queue := [newMove (s.me.lastNumber + 1) .directed start.toNat]
        lastNumber := s.me.lastNumber + 1 } := congrArg WorkPart.me hwork
    have hct : u.ct = s.ct := hw ▸ reportWork_ct _
    have hpm : u.pm.state = s.pm.state := congrArg WorkPart.platter hwork
    have hurgent : u.me.urgent = false := by rw [hme]; exact hu
    have hidle : EngineIdle u := ⟨by rw [hme]; exact ha, by rw [hme]; exact hs, by rw [hpm]; exact hp⟩
    have hsame : (if engineTests u then urgentCheck u else u) = u := by rw [urgentCheck_not_urgent hurgent, ite_self]
    have hev : engineEvent u = u := by
      rw [engineEvent_idle (by rw [hsame]; exact hidle), hsame, releaseYields_none (noYieldHeld_of_ct hy hct), ite_self]
    have hview : workViewTrue u := hw ▸ reportWork_makes_true hnr
    have hmoves : u.pm.movesExist = true := by
      obtain ⟨-, -, hmoves, -⟩ := hview
      rw [hmoves]
      simp [allMoves, hme]
    rw [hev]
    refine ⟨congrArg (· ++ _) (congrArg WorkPart.completions hwork), ?_, ?_, hidle.active, hidle.stack, hmoves,
      congrArg WorkPart.sm hwork, congrArg WorkPart.hu hwork, congrArg WorkPart.fps hwork, congrArg WorkPart.pps hwork, hct,
      congrArg WorkPart.mode hwork, congrArg WorkPart.rc hwork, congrArg WorkPart.params hwork⟩
    · show u.me.queue = _
      rw [hme]
    · show u.me.lastNumber = _
      rw [hme]

end Sys2Proof.Machine

/-! ## Stopping every move (R122, R124) -/

namespace Sys2Proof.Machine

/-- From one engine to another moves have only left, no chunk has come in flight, and urgent mode has not begun. -/
structure Fewer (a b : MigrationEngine) : Prop where
  queue : b.queue.map Move.number ⊆ a.queue.map Move.number
  stack : b.stack.map Move.number ⊆ a.stack.map Move.number
  active : b.active.toList.map Move.number ⊆ a.active.toList.map Move.number
  slot0 : a.slot0 = none → b.slot0 = none
  slot1 : a.slot1 = none → b.slot1 = none
  urgent : a.urgent = false → b.urgent = false

theorem Fewer.refl (a : MigrationEngine) : Fewer a a :=
  ⟨List.Subset.refl _, List.Subset.refl _, List.Subset.refl _, id, id, id⟩

theorem Fewer.trans {a b c : MigrationEngine} (h : Fewer a b) (k : Fewer b c) : Fewer a c :=
  ⟨List.Subset.trans k.queue h.queue, List.Subset.trans k.stack h.stack, List.Subset.trans k.active h.active,
    k.slot0 ∘ h.slot0, k.slot1 ∘ h.slot1, k.urgent ∘ h.urgent⟩

/-- Urgent mode does not begin at a comparison: the engine makes no tests, or the dirty count lies below DirtyHigh (R109). -/
def Unpressed (s : State) : Prop := engineTests s = false ∨ s.sm.dirtyCount < s.params.dirtyHigh

/-- From one state to another moves have only left and urgent mode cannot begin. -/
structure Leaving (r s : State) : Prop where
  fewer : Fewer r.me s.me
  unpressed : Unpressed s

theorem engineTests_of_calm {s t : State} (h : calmPart t = calmPart s) : engineTests t = engineTests s := by
  have h1 : t.lu.mode = s.lu.mode := congrArg (fun c => c.base.mode) h
  have h2 : t.lu.marker = s.lu.marker := congrArg (fun c => c.base.marker) h
  simp only [engineTests, inReset, h1, h2]

/-- What keeps the calm part, the engine and the dirty count keeps the relation. -/
theorem Leaving.of_calm {r s t : State} (h : Leaving r s) (hc : calmPart t = calmPart s) (hme : t.me = s.me)
    (hd : t.sm.dirtyCount = s.sm.dirtyCount) : Leaving r t := by
  refine ⟨hme ▸ h.fewer, ?_⟩
  have hp : t.params = s.params := congrArg (fun c => c.base.params) hc
  unfold Unpressed
  rw [engineTests_of_calm hc, hd, hp]
  exact h.unpressed

theorem leaving_base (r : State) : Base (Leaving r) where
  touch := fun _ h => h.of_calm rfl rfl rfl
  occur := fun k a _ _ h => h.of_calm (occur_calm k a _) (occur_me k a _)
    (congrArg (fun w => w.sm.dirtyCount) (occur_work k a _))
  monitor := fun _ _ h => h.of_calm rfl rfl rfl
  tracker := fun {s} c hc h => by
    have : calmPart { s with ct := c } = calmPart s := by
      simp only [calmPart, hc.tags, hc.arrival]
      rfl
    exact h.of_calm this rfl rfl
  held := fun _ h => h.of_calm rfl rfl rfl
  operation := fun {s} o ho h => by
    have : calmPart { s with cu.operation := o } = calmPart s := by simp only [calmPart, basePart, ho.kind]
    exact h.of_calm this rfl rfl
  flash := fun _ _ h => h.of_calm rfl rfl rfl
  platter := fun _ _ h => h.of_calm rfl rfl rfl
  reissued := fun _ _ _ _ h => h.of_calm rfl rfl rfl

namespace Leaving

variable {r s : State}

theorem me {m : MigrationEngine} (h : Leaving r s) (hm : Fewer s.me m) : Leaving r { s with me := m } :=
  ⟨h.fewer.trans hm, h.unpressed⟩

theorem sm {m : SegmentMap} (h : Leaving r s) (hd : m.dirtyCount ≤ s.sm.dirtyCount) : Leaving r { s with sm := m } :=
  ⟨h.fewer, h.unpressed.imp_right hd.trans_lt⟩

theorem bump (k : Counter) (h : Leaving r s) : Leaving r (bump k s) :=
  h.of_calm (bump_calm k _) (by rw [bump_me]) (by rw [bump_sm])

theorem keepSlots (test : ChunkSlot → Bool) (h : Leaving r s) : Leaving r (keepSlots test s) :=
  h.me ⟨List.Subset.refl _, List.Subset.refl _, List.Subset.refl _, fun hs => by simp [hs], fun hs => by simp [hs], id⟩

theorem modifyActive {f : Move → Move} (hf : ∀ m, (f m).number = m.number) (h : Leaving r s) :
    Leaving r (modifyActive f s) := by
  refine h.me ⟨List.Subset.refl _, List.Subset.refl _, ?_, id, id, id⟩
  cases s.me.active with
  | none => exact List.Subset.refl _
  | some m => simp [hf]

theorem removeMove (number : Byte) (h : Leaving r s) : Leaving r (removeMove number s) := by
  refine (leaving_base r).reportWork (h.me ⟨?_, ?_, ?_, id, id, id⟩)
  · exact List.map_subset _ (List.filter_subset_self _)
  · exact List.map_subset _ (List.filter_subset_self _)
  · cases s.me.active with
    | none => exact List.Subset.refl _
    | some m =>
      by_cases hm : m.number = number <;> simp [Option.filter, hm]

theorem pullOrders (number : Byte) (h : Leaving r s) : Leaving r (pullOrders number s) :=
  keepSlots _ ((leaving_base r).takeBackChunks number h)

theorem markStop (cause : StopCause) (h : Leaving r s) : Leaving r (markStop cause s) := by
  unfold Machine.markStop
  split
  · exact h
  · split
    · exact h
    · exact pullOrders _ (keepSlots _ (modifyActive (fun _ => rfl) h))

theorem endOfEntry (marker : Option Byte) (h : Leaving r s) : Leaving r (endOfEntry marker s) := by
  unfold Machine.endOfEntry
  split
  · exact h
  · split
    · exact h.removeMove _
    · split
      · dsimp only
        split
        · exact (h.markStop _).removeMove _
        · exact h.markStop _
      · exact h

theorem compareDirty (h : Leaving r s) : Leaving r (compareDirty s) := by
  unfold Machine.compareDirty
  split
  · rename_i ht
    have hlow : ¬ s.params.dirtyHigh ≤ s.sm.dirtyCount := by
      rcases h.unpressed with hu | hu
      · rw [ht] at hu
        cases hu
      · omega
    rw [if_neg (by simp [hlow])]
    split
    · exact h.me ⟨List.Subset.refl _, List.Subset.refl _, List.Subset.refl _, id, id, fun _ => rfl⟩
    · exact h
  · exact h

theorem modifyEntry (segment : Nat) (f : Entry → Entry) (h : Leaving r s) : Leaving r (modifyEntry segment f s) :=
  (leaving_base r).touch 0 (h.sm (Nat.le_refl _))

theorem frameLeavesBound (f : Nat) (h : Leaving r s) : Leaving r (frameLeavesBound f s) := by
  have hB := leaving_base r
  have hall : ∀ (os : List Order) (t : State), Leaving r t → Leaving r (os.foldl (fun t o => withdrawn o t) t) := by
    intro os
    induction os with
    | nil => exact fun _ h => h
    | cons o os ih => exact fun t h => ih _ (hB.withdrawn o h)
  unfold Machine.frameLeavesBound
  dsimp only
  have h1 := hall ((touch 0 { s with sm.frames := withFrameState f .trimming s.sm.frames }).fps.foreground.filter
    (leavesWith f)) _ (hB.dropFrameOrders f (hB.touch 0
      (h.sm (m := { s.sm with frames := withFrameState f .trimming s.sm.frames }) (Nat.le_refl _))))
  split
  · exact hB.askTrim _ h1
  · exact h1

theorem removeEntry (segment : Nat) (h : Leaving r s) : Leaving r (removeEntry segment s) := by
  unfold Machine.removeEntry
  split
  · exact h
  · rename_i e _
    have h1 : Leaving r (offLists segment
        { s with sm.entries := s.sm.entries.filter fun x => x.segment != segment }) :=
      (leaving_base r).touch 0 (h.sm (Nat.le_refl _))
    have h2 := frameLeavesBound e.frame (h1.endOfEntry e.marker)
    dsimp only
    split
    · exact compareDirty (h2.sm (Nat.sub_le _ _))
    · exact h2

theorem reportAbandoned (m : Move) (cause : StopCause) (h : Leaving r s) : Leaving r (reportAbandoned m cause s) := by
  have hB := leaving_base r
  have hpromotion : Leaving r (promotionAbandoned m.segment m.number s) := by
    unfold promotionAbandoned
    split
    · exact h
    · split
      · exact h.removeEntry _
      · exact h
  have hflush : Leaving r (flushAbandoned m.segment m.number cause s) := by
    unfold flushAbandoned
    split
    · split
      · exact (h.modifyEntry _ _).sm (Nat.le_refl _)
      · exact h
    · exact h
  unfold Machine.reportAbandoned
  split
  · exact h
  · split
    · exact hpromotion.bump _
    · split
      · dsimp only
        split
        · exact hflush.bump _
        · exact hflush
      · unfold flushDropped
        split
        · exact h.modifyEntry _ _
        · exact h

theorem abandon (m : Move) (cause : StopCause) (h : Leaving r s) : Leaving r (abandon m cause s) :=
  (h.removeMove _).reportAbandoned _ _

theorem dropPending (m : Move) (h : Leaving r s) : Leaving r (dropPending m s) := by
  unfold Machine.dropPending
  dsimp only
  split
  · unfold flushDropped
    split
    · exact (h.removeMove _).modifyEntry _ _
    · exact h.removeMove _
  · exact h.removeMove _

end Leaving

/-! ### What is left when every move has been stopped -/

/-- No move of a number is left. -/
structure Gone (number : Byte) (s : State) : Prop where
  queue : number ∉ s.me.queue.map Move.number
  stack : number ∉ s.me.stack.map Move.number
  active : number ∉ s.me.active.toList.map Move.number

theorem Gone.leaving {number : Byte} {s t : State} (h : Gone number s) (hl : Leaving s t) : Gone number t :=
  ⟨fun hq => h.queue (hl.fewer.queue hq), fun hq => h.stack (hl.fewer.stack hq), fun hq => h.active (hl.fewer.active hq)⟩

theorem gone_removeMove (number : Byte) (s : State) : Gone number (removeMove number s) := by
  refine ⟨?_, ?_, ?_⟩ <;> rw [removeMove, reportWork_me]
  · simp
  · simp
  · cases s.me.active with
    | none => simp
    | some m =>
      by_cases hm : m.number = number
      · simp [Option.filter, hm]
      · simp [Option.filter, hm, Ne.symm hm]

theorem Leaving.refl {s : State} (h : Unpressed s) : Leaving s s := ⟨.refl _, h⟩

theorem Leaving.trans {r s t : State} (h : Leaving r s) (k : Leaving s t) : Leaving r t :=
  ⟨h.fewer.trans k.fewer, k.unpressed⟩

theorem gone_dropPending {m : Move} {s : State} (h : Unpressed s) : Gone m.number (dropPending m s) := by
  have hl := (Leaving.refl h).removeMove m.number
  unfold dropPending
  dsimp only
  split
  · unfold flushDropped
    split
    · exact (gone_removeMove m.number s).leaving ((Leaving.refl hl.unpressed).modifyEntry _ _)
    · exact gone_removeMove _ _
  · exact gone_removeMove _ _

theorem gone_abandon {m : Move} {cause : StopCause} {s : State} (h : Unpressed s) : Gone m.number (abandon m cause s) :=
  (gone_removeMove m.number s).leaving
    ((Leaving.refl ((Leaving.refl h).removeMove m.number).unpressed).reportAbandoned m cause)

theorem leaving_stopPending (ms : List Move) {s : State} (h : Unpressed s) : Leaving s (stopPending ms s)
    ∧ ∀ m ∈ ms, Gone m.number (stopPending ms s) := by
  induction ms generalizing s with
  | nil => exact ⟨.refl h, fun _ hm => by cases hm⟩
  | cons x xs ih =>
    have hx := (Leaving.refl h).dropPending x
    obtain ⟨hl, hgone⟩ := ih hx.unpressed
    refine ⟨hx.trans hl, fun m hm => ?_⟩
    rcases List.mem_cons.1 hm with rfl | hm
    · exact (gone_dropPending h).leaving hl
    · exact hgone m hm

theorem leaving_stopStacked (cause : StopCause) (ms : List Move) {s : State} (h : Unpressed s) :
    Leaving s (stopStacked cause ms s) ∧ ∀ m ∈ ms, Gone m.number (stopStacked cause ms s) := by
  induction ms generalizing s with
  | nil => exact ⟨.refl h, fun _ hm => by cases hm⟩
  | cons x xs ih =>
    have hx := (Leaving.refl h).abandon x cause
    obtain ⟨hl, hgone⟩ := ih hx.unpressed
    refine ⟨hx.trans hl, fun m hm => ?_⟩
    rcases List.mem_cons.1 hm with rfl | hm
    · exact (gone_abandon h).leaving hl
    · exact hgone m hm

theorem Leaving.endIfDrained {r s : State} (h : Leaving r s) : Leaving r (endIfDrained s) := by
  unfold Machine.endIfDrained
  split
  · split
    · split
      · exact h
      · exact h.abandon _ _
    · exact h
  · exact h

theorem takeBackChunks_me (number : Byte) (s : State) : (takeBackChunks number s).me = s.me := by
  have hB : Base fun t => t.me = s.me :=
    { touch := fun _ h => h
      occur := fun k a _ _ h => by rw [occur_me]; exact h
      monitor := fun _ _ h => h
      tracker := fun _ _ h => h
      held := fun _ h => h
      operation := fun _ _ h => h
      flash := fun _ _ h => h
      platter := fun _ _ h => h
      reissued := fun _ _ _ _ h => h }
  exact hB.takeBackChunks number rfl

/-- The active move after a stop cause is recorded: one with a cause. -/
theorem markStop_active (cause : StopCause) (s : State) :
    (markStop cause s).me.active = none ∨ ∃ m, (markStop cause s).me.active = some m ∧ m.stop.isSome = true := by
  unfold markStop
  split
  · exact .inl ‹_›
  · rename_i m hm
    split
    · exact .inr ⟨m, hm, ‹_›⟩
    · refine .inr ⟨{ m with stop := some cause }, ?_, rfl⟩
      show (takeBackChunks _ _).me.active = _
      rw [takeBackChunks_me]
      simp [keepSlots, modifyActive, hm]

/-- With no chunk in flight once a stop is marked the active move is gone (R122). -/
theorem stopActive_drained {cause : StopCause} {s : State} (h : Unpressed s)
    (hflight : chunkInFlight (markStop cause s) = false) : (stopActive cause s).me.active = none := by
  have hl := (Leaving.refl h).markStop cause
  unfold stopActive endIfDrained
  rcases markStop_active cause s with hnone | ⟨m, hm, hstop⟩
  · rw [hnone]
    exact hnone
  · obtain ⟨c, hc⟩ := Option.isSome_iff_exists.1 hstop
    rw [hm]
    dsimp only
    rw [hc]
    dsimp only
    rw [if_neg (by simp [hflight])]
    have hgone := gone_abandon (m := m) (cause := c) hl.unpressed
    have hleave := (Leaving.refl hl.unpressed).abandon m c
    have hsub := hleave.fewer.active
    rw [hm] at hsub
    cases ha : (abandon m c (markStop cause s)).me.active with
    | none => rfl
    | some x =>
      have hx : x.number = m.number := by
        have := hsub (a := x.number) (by rw [ha]; simp)
        simpa using this
      exact absurd (by rw [ha]; simp [hx]) hgone.active

theorem stopActive_active {cause : StopCause} {s : State} (h : Unpressed s) (h0 : s.me.slot0 = none)
    (h1 : s.me.slot1 = none) : (stopActive cause s).me.active = none := by
  have hl := (Leaving.refl h).markStop cause
  exact stopActive_drained h (by simp [chunkInFlight, hl.fewer.slot0 h0, hl.fewer.slot1 h1])

/-- Stopping every move leaves the queue and the stack empty, urgent mode ended, and no active move where no chunk is in
flight (R124). -/
theorem stopAll_leaves (cause : StopCause) {s : State} (h : Unpressed s) :
    Leaving s (stopAll cause s) ∧ (stopAll cause s).me.queue = [] ∧ (stopAll cause s).me.stack = []
      ∧ (s.me.slot0 = none → s.me.slot1 = none → (stopAll cause s).me.active = none) := by
  obtain ⟨hp, hpgone⟩ := leaving_stopPending s.me.queue h
  obtain ⟨hk, hkgone⟩ := leaving_stopStacked cause (stopPending s.me.queue s).me.stack hp.unpressed
  have hstop := ((Leaving.refl hk.unpressed).markStop cause).endIfDrained
  have hall : Leaving s (stopAll cause s) := (hp.trans hk).trans hstop
  refine ⟨hall, ?_, ?_, fun h0 h1 => ?_⟩
  · refine (List.map_eq_nil_iff (f := Move.number)).1 (List.eq_nil_iff_forall_not_mem.2 fun n hn => ?_)
    obtain ⟨m, hm, rfl⟩ := List.mem_map.1 (hall.fewer.queue hn)
    exact ((hpgone m hm).leaving (hk.trans hstop)).queue hn
  · refine (List.map_eq_nil_iff (f := Move.number)).1 (List.eq_nil_iff_forall_not_mem.2 fun n hn => ?_)
    obtain ⟨m, hm, rfl⟩ := List.mem_map.1 ((hk.trans hstop).fewer.stack hn)
    exact ((hkgone m hm).leaving hstop).stack hn
  · have hl := hp.trans hk
    exact stopActive_active hk.unpressed (hl.fewer.slot0 h0) (hl.fewer.slot1 h1)

/-! ### Go Offline and the end of its drain (R195) -/

/-- The active move, if there is one, is stopped. -/
def ActiveStopped (s : State) : Prop := s.me.active = none ∨ ∃ m, s.me.active = some m ∧ m.stop.isSome = true

theorem stopActive_stopped {cause : StopCause} {s : State} (h : Unpressed s) : ActiveStopped (stopActive cause s) := by
  by_cases hflight : chunkInFlight (markStop cause s) = true
  · unfold stopActive endIfDrained
    rcases markStop_active cause s with hnone | ⟨m, hm, hstop⟩
    · rw [hnone]
      exact .inl hnone
    · obtain ⟨c, hc⟩ := Option.isSome_iff_exists.1 hstop
      rw [hm]
      dsimp only
      rw [hc]
      dsimp only
      rw [if_pos hflight]
      exact .inr ⟨m, hm, hstop⟩
  · exact .inl (stopActive_drained h (by simpa using hflight))

theorem startChunk_stopped {s : State} (h : ActiveStopped s) : startChunk s = s := by
  rcases h with h | ⟨m, hm, hstop⟩
  · exact startChunk_none h
  · have hgate : chunkGate m s = false := by
      obtain ⟨c, hc⟩ := Option.isSome_iff_exists.1 hstop
      simp [chunkGate, hc]
    unfold startChunk
    rw [hm]
    dsimp only
    split
    · rw [if_pos (by simp [hgate])]
    · rfl

theorem placeWrite_stopped {s : State} (h : ActiveStopped s) : placeWrite s = s := by
  rcases h with h | ⟨m, hm, hstop⟩
  · exact placeWrite_none h
  · obtain ⟨c, hc⟩ := Option.isSome_iff_exists.1 hstop
    unfold placeWrite
    split
    · rename_i m' _ _ hm' _
      rw [hm] at hm'
      cases hm'
      rw [if_neg (by simp [hc])]
    · rfl

theorem pumpChunks_stopped {s : State} (h : ActiveStopped s) : pumpChunks s = s := by
  unfold pumpChunks
  split
  · rfl
  · simp only [placeWrite_stopped h, startChunk_stopped h]

/-- An event of an engine that makes no tests and whose active move is stopped leaves the moves as they are. -/
theorem engineEvent_stopped {s : State} (ht : engineTests s = false) (hm : s.lu.mode ≠ .saving) (h : ActiveStopped s) :
    (engineEvent s).me = s.me := by
  have hchecks : engineChecks s = s := by
    unfold engineChecks
    rw [if_neg (by simp [ht])]
  have hpause : pauseTest s = s := by
    unfold pauseTest
    rw [if_neg (by simp [hm])]
  unfold engineEvent
  split
  · rfl
  · rw [hchecks, pumpChunks_stopped h, hpause]
    exact releaseWhere_me _ s

theorem goOffline_taken {h : TxnHead} {s : State} (hm : mayTake .goOffline h s) :
    exec (.goOffline h) s = .next (beginDrain h s) := (transaction_accepted hm _ rfl _).trans rfl

/-- Settles O23. -/
theorem goOfflineAndDrain : Obligations.GoOfflineAndDrain := by
  refine ⟨fun h s hm => ⟨_, goOffline_taken hm, ?_⟩, fun s hmode hmarker harr horders hmoves htrim hlabels => ?_⟩
  · unfold beginDrain
    generalize hu : setMarker .goOffline h { s with lu.mode := .draining, me.urgent := false } = u
    have htests : engineTests u = false := by rw [← hu]; rfl
    have hurgent : u.me.urgent = false := by rw [← hu]; rfl
    obtain ⟨hl, hqueue, hstack, hactive⟩ := stopAll_leaves .offline (s := u) (.inl htests)
    have hcalm : calmPart (stopAll .offline u) = calmPart u := stopAll_calm _ _
    have hme : (engineEvent (stopAll .offline u)).me = (stopAll .offline u).me := by
      refine engineEvent_stopped ((engineTests_of_calm hcalm).trans htests) ?_ ?_
      · have : (stopAll .offline u).lu.mode = u.lu.mode := congrArg (fun c => c.base.mode) hcalm
        rw [this, ← hu]
        exact fun h => by cases h
      · obtain ⟨hp, -⟩ := leaving_stopPending u.me.queue (s := u) (.inl htests)
        obtain ⟨hk, -⟩ := leaving_stopStacked .offline (stopPending u.me.queue u).me.stack hp.unpressed
        exact stopActive_stopped hk.unpressed
    have hpart : calmPart (engineEvent (stopAll .offline u)) = calmPart u := (engineEvent_calm _).trans hcalm
    generalize engineEvent (stopAll .offline u) = t at hme hpart ⊢
    have hslots : u.me.slot0 = s.me.slot0 ∧ u.me.slot1 = s.me.slot1 := by rw [← hu]; exact ⟨rfl, rfl⟩
    rw [hslots.1, hslots.2] at hactive
    rw [hme]
    have hbase {α : Type} (f : CalmPart → α) : f (calmPart t) = f (calmPart u) := congrArg f hpart
    rw [← hu] at hbase
    exact ⟨hbase fun c => c.base.mode, hbase fun c => c.base.marker, hbase fun c => c.base.markerSeq,
      hbase CalmPart.completions, hl.fewer.urgent hurgent, hqueue, hstack, hactive, hbase fun c => c.base.frameCount,
      hbase fun c => c.base.rc, hbase fun c => c.base.params, hbase CalmPart.arrival⟩
  · have hends : drainEnds s = true := by
      simp [drainEnds, mapQuiet, hmode, hmarker, harr, horders, hmoves, htrim, hlabels]
    show Host.Outcome.next (if drainEnds s then endDrain s else s) = _
    rw [if_pos hends]
    rfl

/-! ### Cancel Background (R124, R199) -/

theorem cancelBackground_taken {h : TxnHead} {s : State} (hm : mayTake .cancelBackground h s) :
    exec (.cancelBackground h) s = .next (complete (answered 16 h false (.count (allMoves s).length))
      (engineEvent (stopAll .cancel s))) := (transaction_accepted hm _ rfl _).trans rfl

/-- Settles O26. -/
theorem cancelBackground : Obligations.CancelBackground := by
  intro h s hm
  refine ⟨_, cancelBackground_taken hm, ?_⟩
  have hcalm : calmPart (stopAll .cancel s) = calmPart s := stopAll_calm _ _
  obtain ⟨hparams, hcomp, hrc, hmode, hmarker, -, harr⟩ :=
    answered_fields (r := answered 16 h false (.count (allMoves s).length)) ((engineEvent_calm _).trans hcalm)
  have hcount : (allMoves s).length = s.me.active.toList.length + s.me.stack.length + s.me.queue.length := by
    simp only [allMoves, List.length_append]
  rw [hcount] at hcomp ⊢
  refine ⟨hcomp, hmode, hmarker, hrc, hparams, harr, fun ha h0 h1 hu hp hd => ?_⟩
  obtain ⟨hl, hqueue, hstack, hactive⟩ := stopAll_leaves .cancel (s := s) (.inr hd)
  have hpm : (stopAll .cancel s).pm.state = s.pm.state :=
    congrArg EnginePart.platter ((enginePart_core (· = enginePart s)).mapped.stopAll .cancel rfl)
  have hidle : EngineIdle (stopAll .cancel s) := ⟨hactive h0 h1, hstack, hpm ▸ hp⟩
  have hsame : (if engineTests (stopAll .cancel s) then urgentCheck (stopAll .cancel s) else stopAll .cancel s)
      = stopAll .cancel s := by rw [urgentCheck_not_urgent (hl.fewer.urgent hu), ite_self]
  have hme : (engineEvent (stopAll .cancel s)).me = (stopAll .cancel s).me := by
    rw [engineEvent_idle (by rw [hsame]; exact hidle), hsame]
    split
    · rfl
    · exact releaseWhere_me _ _
  show (engineEvent (stopAll .cancel s)).me.queue = [] ∧ (engineEvent (stopAll .cancel s)).me.stack = []
    ∧ (engineEvent (stopAll .cancel s)).me.active = none
  rw [hme]
  exact ⟨hqueue, hstack, hidle.active⟩

end Sys2Proof.Machine

/-! ## Save, Restore and Rebuild -/

namespace Sys2Proof.Machine

/-! ### A checkpoint order on a Flash Background queue with room -/

/-- The state after a checkpoint order has joined the Flash Background queue. -/
def requested (op : Operation) (first blocks : Nat) (o : CuOperation) (s : State) : State :=
  { s with
    cu.requestNo := s.cu.requestNo + 1
    cu.operation := o
    fps.background := s.fps.background ++ [checkpointOrder (s.cu.requestNo + 1) op first blocks] }

theorem workViewTrue_of_same {s t : State} (h : workViewTrue s) (hp : t.pps = s.pps) (hm : t.me = s.me) (hv : t.pm = s.pm) :
    workViewTrue t := by
  unfold workViewTrue allMoves at *
  rw [hp, hm, hv]
  exact h

/-- With room and a true work view a checkpoint order joins the queue and nothing else changes (R170). -/
theorem placeRequest_room {op : Operation} {first blocks : Nat} {install : Order → CuOperation} {s : State}
    (hroom : s.fps.background.length < 16) (hview : workViewTrue s) (hwait : ∀ o, waitingOrder (install o) = some o) :
    placeRequest op first blocks install s
      = requested op first blocks (clearWaiting (install (checkpointOrder (s.cu.requestNo + 1) op first blocks))) s := by
  have hbg : backgroundRoom .flash { s with
      cu.requestNo := s.cu.requestNo + 1
      cu.operation := install (checkpointOrder (s.cu.requestNo + 1) op first blocks) } = true := decide_eq_true hroom
  unfold placeRequest placeCheckpoint
  simp only [hwait]
  rw [if_pos hbg]
  unfold placeBackground
  exact reportWork_of_true (workViewTrue_of_same hview rfl rfl rfl)

/-! ### Restore (R176) -/

theorem setInRange_of_lt {b : Byte} (h : b.toNat < 64) : setInRange b = true := decide_eq_true h

theorem setInRange_of_ge {b : Byte} (h : 64 ≤ b.toNat) : setInRange b = false := decide_eq_false (by omega)

theorem setOf_eq (b : Byte) : setOf b = BitVec.ofNat 6 b.toNat := by
  apply BitVec.eq_of_toNat_eq
  simp [setOf]

theorem restore_taken (h : TxnHead) (set : Byte) {s : State} (hm : mayTake .restore h s) :
    (64 ≤ set.toNat → exec (.restore h set) s = .next (afterRefusal 8 h.seq .badArgument s)) ∧
    (set.toNat < 64 → exec (.restore h set) s = .next
      { s with
        lu.mode := .restoring
        lu.marker := .restore
        lu.markerSeq := h.seq
        cu.operation := .restoreDraining (BitVec.ofNat 6 set.toNat &&& s.params.enabled) }) := by
  refine ⟨fun hs => transaction_refused hm _ (badUnless_of_false (setInRange_of_ge hs)) _, fun hs => ?_⟩
  refine (transaction_accepted hm _ (badUnless_of_true (setInRange_of_lt hs)) _).trans ?_
  unfold beginRestore
  rw [setOf_eq]
  rfl

/-- Settles O30. -/
theorem restoreAndItsHeader : Obligations.RestoreAndItsHeader := by
  refine ⟨fun h set s hm => restore_taken h set hm, fun s r hop => ⟨fun hf => ?_, fun hf hroom hview => ?_⟩, fun s p ok => ?_⟩
  · show Host.Outcome.next (restoreHeaderReadEffect s) = _
    unfold restoreHeaderReadEffect
    rw [hop]
    dsimp only
    rw [if_pos hf]
  · have heff : restoreHeaderReadEffect s = readHeaderBlock r s := by
      unfold restoreHeaderReadEffect
      rw [hop]
      dsimp only
      rw [if_neg (by simp [hf])]
    refine ⟨restoreHeaderReadEffect s, ⟨r, compList r, none, 0, 0, none⟩, rfl, ?_⟩
    rw [heff]
    unfold readHeaderBlock
    rw [placeRequest_room hroom hview fun o => rfl]
    exact ⟨rfl, rfl, rfl, rfl, rfl, rfl, rfl, rfl, rfl, rfl, rfl, rfl, rfl, rfl, rfl, rfl, rfl, rfl, rfl⟩
  · intro ended readable
    have hread : (!ok || !signatureRight s.cu.buffer) = true ↔ ¬ readable := by
      show _ ↔ ¬(ok = true ∧ signatureRight s.cu.buffer = true)
      cases ok <;> simp
    refine ⟨fun hr => ?_, fun hr hv => ?_, fun hr hv hc hg => ?_⟩
    · unfold headerResult
      dsimp only
      rw [if_pos (hread.2 hr)]
      rfl
    · unfold headerResult
      dsimp only
      rw [if_neg (fun h => hread.1 h hr), if_pos (by simp [hv])]
      rfl
    · unfold headerResult
      dsimp only
      rw [if_neg (fun h => hread.1 h hr), if_neg (by simp [hv]), if_pos (by simp [CompSet.has, hc, hg])]
      rfl

/-! ### Rebuild begins (R180) -/

/-- Settles O31. -/
theorem rebuildBegins : Obligations.RebuildBegins := by
  refine ⟨fun h s hm => (transaction_accepted hm _ rfl _).trans rfl, fun s hop => ⟨fun hf => ?_, fun hf hpos hlen => ?_⟩⟩
  · show Host.Outcome.next (rebuildLabelReadsEffect s) = _
    unfold rebuildLabelReadsEffect
    rw [hop]
    dsimp only
    rw [if_pos hf]
  · have heff : rebuildLabelReadsEffect s = startLabelReads s := by
      unfold rebuildLabelReadsEffect
      rw [hop]
      dsimp only
      rw [if_neg (by simp [hf])]
    refine ⟨rebuildLabelReadsEffect s, ⟨min (16 - s.fps.background.length) s.lu.frameCount, 0, [], [], none⟩, rfl, ?_⟩
    rw [heff]
    unfold startLabelReads
    dsimp only
    rw [if_neg (by show ¬ s.lu.frameCount = 0; omega)]
    unfold placeLabelReads
    dsimp only
    refine ⟨?_, rfl, rfl, rfl, ?_, rfl, ?_, rfl, rfl, rfl, rfl, rfl, rfl, rfl⟩
    · simp [initComponent, freshMap, reportInitialized]
    · simp [initComponent, freshMap, reportInitialized]
    · show compMinus s.cu.inUse (compBit 0) = _
      unfold compMinus
      congr 1

end Sys2Proof.Machine

/-! ## The plan of a save at the end of its quiesce -/

namespace Sys2Proof.Machine

/-- The components of a set begin with its lowest. -/
theorem compList_lowest {w : CompSet} {c : Fin 6} (hc : w.getLsbD c.val = true) (hlow : ∀ d : Fin 6, d < c → w.getLsbD d.val = false) :
    ∃ rest, compList w = c :: rest := by
  have hhead : (compList w).head? = some c := by
    unfold compList
    rw [List.head?_filter, List.find?_eq_some_iff_append]
    refine ⟨hc, (List.finRange 6).take c.val, (List.finRange 6).drop (c.val + 1), ?_, fun d hd => ?_⟩
    · have hcons : (List.finRange 6).drop c.val = c :: (List.finRange 6).drop (c.val + 1) := by
        rw [List.drop_eq_getElem_cons (by simp)]
        simp
      rw [← hcons, List.take_append_drop]
    · obtain ⟨i, hi, hd⟩ := List.mem_take_iff_getElem.1 hd
      have hdc : d < c := by
        subst hd
        simp only [List.getElem_finRange, Fin.lt_def, Fin.val_cast]
        omega
      show (!w.getLsbD d.val) = true
      rw [hlow d hdc]
      rfl
  exact List.head?_eq_some_iff.1 hhead

/-- The conditions under which a save is not rewriting (R172). -/
theorem rewriting_false {s : State} (hl : s.cu.layout = some .standard) (hi : s.cu.image.layout = some .standard)
    (hf : s.cu.image.frameCount = s.lu.frameCount) (hs : s.cu.image.sequence < 4294967295) : rewriting s = false := by
  have hne : s.cu.image.sequence ≠ Config.maxU32 := by
    show s.cu.image.sequence ≠ 4294967295
    omega
  simp [rewriting, hl, hi, hf, hne]

theorem writtenSet_eq {s : State} (r : CompSet) (full : Bool) (hr : rewriting s = false) :
    writtenSet r full s = r &&& s.cu.inUse &&& (if full then 0b111111 else s.cu.modified) := by
  unfold writtenSet
  have hall : r &&& s.cu.inUse &&& (0b111111 : CompSet) = r &&& s.cu.inUse := BitVec.and_allOnes
  rw [hr]
  cases full with
  | true => exact hall.symm
  | false => rfl

theorem presentAfter_eq {s : State} (r : CompSet) (hr : rewriting s = false) :
    presentAfter r s = (s.cu.image.present &&& ~~~r) ||| (r &&& s.cu.inUse) := by
  simp [presentAfter, hr, compMinus]

/-- The end of a quiesce where the conditions of R171 hold together. -/
theorem quiesceEndEffect_eq {s : State} {r : CompSet} {full : Bool} (hop : s.cu.operation = .quiescing r full)
    (hc : commandOrders s = false) (hk : chunkInFlight s = false) (ht : framesIn .trimming s = 0)
    (hl : labelUpdatesPending s = false) : quiesceEndEffect s = planSave r full s := by
  have hq : quiesceEnds s = true := by simp [quiesceEnds, mapQuiet, hc, hk, ht, hl]
  unfold quiesceEndEffect
  rw [hop]
  exact if_pos hq

/-- A save that does not come from ONLINE ends with nothing to resume (R174). -/
theorem endSave_outside {s : State} (status : TxnStatus) (results : TxnResults) (hm : s.lu.mode ≠ .saving) :
    endSave status results s = completeLong .save status results { s with cu.operation := .idle } := if_neg hm

namespace Save

/-- Settles O28. -/
theorem quiesceEnds : Obligations.QuiesceEnds := by
  intro s r full hop hmode hc hk ht hl hlay himg hfc hseq w present
  have hrw : rewriting s = false := rewriting_false hlay himg hfc hseq
  have hstd : s.cu.layout ≠ some .compact := by rw [hlay]; decide
  have hw : writtenSet r full s = w := writtenSet_eq r full hrw
  have hp : presentAfter r s = present := presentAfter_eq r hrw
  refine ⟨fun hw0 hpres => ?_, fun c hbit hlow hroom hview => ?_⟩
  · show Host.Outcome.next (quiesceEndEffect s) = _
    rw [quiesceEndEffect_eq hop hc hk ht hl]
    unfold planSave
    dsimp only
    rw [hw, hp, if_neg (by simp [hstd]), if_pos (by simp [hw0, hpres]), endSave_outside _ _ (by rw [hmode]; decide)]
    simp only [hrw]
    rfl
  · obtain ⟨rest, hrest⟩ := compList_lowest hbit hlow
    have hw0 : w ≠ 0 := by
      intro h0
      rw [h0] at hbit
      simp at hbit
    have hnext : nextSequence s = s.cu.image.sequence + 1 := if_neg (by show ¬ s.cu.image.sequence = 4294967295; omega)
    let length := recordLength c s
    let start := areaStart c s.lu.frameCount
    refine ⟨quiesceEndEffect s,
      { requested := r
        fullPerformed := rewriting s && !full
        written := w
        present := present
        sequence := s.cu.image.sequence + 1
        remaining := rest
        current := some c
        snapshotted := 0 ||| compBit c
        entries := s.cu.image.entries.set c ⟨s.cu.image.sequence + 1, start, length, crc32 (recordBody c s)⟩
        nextBlock := 1 + blocksOf length
        header := s.cu.image
        waiting := none }, rfl, ?_⟩
    rw [quiesceEndEffect_eq hop hc hk ht hl]
    unfold planSave
    dsimp only
    rw [hw, hp, if_neg (by simp [hstd]), if_neg fun h => hw0 (of_decide_eq_true (Bool.and_eq_true_iff.1 h).1), hrest]
    unfold saveNext writeRecord recordStart
    dsimp only
    rw [if_neg hstd, hnext]
    rw [placeRequest_room
      (s := { s with
        cu.buffer := wholeBlocks (recordBytes c (s.cu.image.sequence + 1) s)
        cu.snapshotMarks := compMinus s.cu.snapshotMarks (compBit c) }) hroom (workViewTrue_of_same hview rfl rfl rfl)
      fun o => rfl]
    exact ⟨rfl, rfl, rfl, rfl, rfl, BitVec.zero_or, rfl, rfl, rfl, rfl, rfl, rfl, rfl, rfl, rfl, rfl, rfl, rfl, rfl, rfl, rfl⟩

end Save

end Sys2Proof.Machine

/-! ## SAVING begins and ends at the Command Tracker -/

namespace Sys2Proof.Machine

/-! ### What the shared operations keep of the Command Tracker -/

/-- A predicate of the Engine Mode and the Command Tracker that survives the changes other units call for is kept by them. -/
theorem core_of_tracker {P : State → Prop} (same : ∀ {s t}, P s → t.lu.mode = s.lu.mode → t.ct = s.ct → P t)
    (tracker : ∀ {s} c, Steadied (releasedReason s) s.ct c → P s → P { s with ct := c }) : Core P where
  touch := fun _ h => same h rfl rfl
  bump := fun k _ h => same h (by rw [bump_lu]) (bump_ct k _)
  occur := fun k a _ _ h => same h (congrArg (fun p => p.base.mode) (occur_calm k a _)) (occur_ct k a _)
  monitor := fun _ _ h => same h rfl rfl
  tracker := fun c hc h => tracker c hc h
  held := fun _ h => same h rfl rfl
  operation := fun _ _ h => same h rfl rfl
  flash := fun _ _ h => same h rfl rfl
  platter := fun _ _ h => same h rfl rfl
  reissued := fun _ _ _ _ h => same h rfl rfl
  moves := fun _ h => same h rfl rfl
  map := fun _ h => same h rfl rfl
  takeCandidate := fun g h =>
    same h (congrArg (fun p => p.base.mode) (takeCandidate_calm g _)) (takeCandidate_ct_pm g _).1

/-- In a mode the tracked commands of some tags agree with a test of their HELD mark, and their pieces with one of their state. -/
structure PiecesAre (mode : EngineMode) (tags : List (Fin 32)) (held : Bool → Prop) (ok : PieceState → Prop) (s : State) :
    Prop where
  mode : s.lu.mode = mode
  commands : ∀ tag ∈ tags, ∀ c, commandOf tag s = some c → held c.held ∧ ∀ p ∈ c.pieces, ok p.state

/-- A test that a released piece passes is kept by the operations that other units call for. -/
theorem piecesAre_core {mode : EngineMode} {tags : List (Fin 32)} {held : Bool → Prop} {ok : PieceState → Prop}
    (released : ok (.waiting (if mode = .saving then .save else .route))) : Core (PiecesAre mode tags held ok) :=
  core_of_tracker
    (fun {s t} h hm hc => ⟨hm.trans h.mode, fun tag ht c hs => h.commands tag ht c (by
      rw [← hs]
      unfold commandOf
      rw [hc])⟩)
    (fun {s} c hc h => ⟨h.mode, fun tag ht y hy => by
      obtain ⟨x, hx, hheld, hpieces⟩ := hc.commands tag y hy
      obtain ⟨hok, hall⟩ := h.commands tag ht x hx
      refine ⟨hheld ▸ hok, fun q hq => ?_⟩
      obtain ⟨p, hp, hs | hs⟩ := hpieces q hq
      · exact hs ▸ hall p hp
      · rw [hs]
        unfold releasedReason
        rw [h.mode]
        exact released⟩)

/-- An operation with no order waiting that is no Rebuild reading labels stays as it is. -/
theorem operation_core {op : CuOperation} (hw : waitingOrder op = none) (hk : opKind op ≠ 6) :
    Core fun s => s.cu.operation = op where
  touch := fun _ h => h
  bump := fun k _ h => by rw [bump_cu_operation]; exact h
  occur := fun k a _ _ h => occur_keeps (P := fun s => s.cu.operation = op) (fun k _ h => by rw [bump_cu_operation]; exact h)
    (fun _ h => h) k a h
  monitor := fun _ _ h => h
  tracker := fun _ _ h => h
  held := fun _ h => h
  operation := fun {s} o ho h => (ho.settled (by rw [h]; exact hw) (by rw [h]; exact hk)).trans h
  flash := fun _ _ h => h
  platter := fun _ _ h => h
  reissued := fun _ _ _ _ h => h
  moves := fun _ h => h
  map := fun _ h => h
  takeCandidate := fun g h => by
    unfold takeCandidate
    split
    · exact h
    · exact h

/-! ### Save is taken (R171, R97) -/

theorem holdForSave_waits (s : State) (tag : Fin 32) (c : Command) (h : commandOf tag (holdForSave s) = some c) :
    ∀ p ∈ c.pieces, ∀ w, p.state = .waiting w → w = .save := by
  unfold holdForSave at h
  rw [commandOf_mapPieces] at h
  obtain ⟨y, -, rfl⟩ := Option.map_eq_some_iff.1 h
  intro p hp w hw
  obtain ⟨q, -, rfl⟩ := List.mem_map.1 hp
  revert hw
  split
  · exact fun hw => (PieceState.waiting.inj hw).symm
  all_goals
    rename_i hq
    rw [hq]
    exact nofun

/-- Save from ONLINE: the pieces that wait, wait for the save, and the operation and the calm part are as the transaction sets
them. -/
theorem enterSaving_online {s : State} (hm : s.lu.mode = .online) {op : CuOperation} (ho : s.cu.operation = op)
    (hw : waitingOrder op = none) (hk : opKind op ≠ 6) :
    calmPart (enterSaving s) = calmPart { s with lu.mode := .saving } ∧ (enterSaving s).cu.operation = op
      ∧ ∀ (tag : Fin 32) (c : Command) (p : Piece) (w : WaitReason), commandOf tag (enterSaving s) = some c → p ∈ c.pieces →
          p.state = .waiting w → w = .save := by
  have heq : enterSaving s = engineEvent (holdForSave { s with lu.mode := .saving }) := if_pos hm
  have hpieces : PiecesAre .saving (List.finRange 32) (fun _ => True) (fun st => ∀ w, st = .waiting w → w = .save)
      (engineEvent (holdForSave { s with lu.mode := .saving })) :=
    (piecesAre_core fun w hw => (PieceState.waiting.inj hw).symm).mapped.engineEvent
      ⟨rfl, fun tag _ c hc => ⟨trivial, holdForSave_waits _ tag c hc⟩⟩
  rw [heq]
  refine ⟨(engineEvent_calm _).trans (holdForSave_calm _), (operation_core hw hk).mapped.engineEvent ho, ?_⟩
  exact fun tag c p w hc hp hs => (hpieces.commands tag (List.mem_finRange tag) c hc).2 p hp w hs

/-- Settles O27. -/
theorem saveTaken : Obligations.SaveTaken := by
  intro h set mode s hm
  refine ⟨fun hbad => ?_, ?_⟩
  · refine transaction_refused hm _ (badUnless_of_false ?_) _
    simp only [setInRange, Bool.and_eq_false_iff, decide_eq_false_iff_not]
    omega
  · intro hs hmode operation
    have hok : (setInRange set && decide (mode.toNat < 2)) = true := by simp [setInRange_of_lt hs, hmode]
    have hexec : exec (.save h set mode) s
        = .next (enterSaving { s with lu.marker := .save, lu.markerSeq := h.seq, cu.operation := operation }) := by
      refine (transaction_accepted hm _ (badUnless_of_true hok) _).trans ?_
      unfold beginSave
      rw [setOf_eq]
      rfl
    refine ⟨fun hoff => ?_, fun hon => ?_⟩
    · rw [hexec]
      exact congrArg Host.Outcome.next (if_neg (by show ¬ s.lu.mode = .online; rw [hoff]; decide))
    · obtain ⟨hcalm, hop, hwait⟩ := enterSaving_online
        (s := { s with lu.marker := .save, lu.markerSeq := h.seq, cu.operation := operation }) hon rfl rfl (by show (1 : Nat) ≠ 6; decide)
      exact ⟨_, hexec, congrArg (fun p => p.base.mode) hcalm, congrArg (fun p => p.base.marker) hcalm,
        congrArg (fun p => p.base.markerSeq) hcalm, hop, congrArg CalmPart.completions hcalm, congrArg CalmPart.arrival hcalm,
        congrArg (fun p => p.base.rc) hcalm, congrArg (fun p => p.base.params) hcalm, hwait⟩

/-! ### The Command Tracker when the mode leaves SAVING (R97) -/

theorem freeSlot_tracks (tag : Fin 32) (s : State) (other : Fin 32) (c : Command) (h : commandOf other (freeSlot tag s) = some c) :
    commandOf other s = some c := by
  by_cases he : other = tag
  · subst he
    simp [commandOf, freeSlot] at h
  · have hne : tag.val ≠ other.val := fun hv => he (Fin.ext hv.symm)
    simpa [commandOf, freeSlot, hne] using h

/-- The FLUSH_CACHE test only takes commands away, and completes those. -/
theorem flushCacheSweep_tracks (ts : List (Fin 32)) (seen : Bool) (s : State) :
    (∀ tag c, commandOf tag (flushCacheSweep ts seen s) = some c → commandOf tag s = some c)
      ∧ ∃ more, (flushCacheSweep ts seen s).lu.completions = s.lu.completions ++ more := by
  induction ts generalizing seen s with
  | nil => exact ⟨fun _ _ h => h, [], (List.append_nil _).symm⟩
  | cons t ts ih =>
    unfold flushCacheSweep
    split
    · exact ih _ _
    · split
      · obtain ⟨hsub, more, hmore⟩ := ih seen (complete (.command t .good .none) (freeSlot t s))
        refine ⟨fun tag c h => freeSlot_tracks t s tag c (hsub tag c h), [.command t .good .none] ++ more, ?_⟩
        rw [hmore, ← List.append_assoc]
        rfl
      · exact ih _ _

theorem splitCommand_tracks (tag : Fin 32) (s : State) :
    (∀ c, commandOf tag (splitCommand tag s) = some c → c.held = false)
      ∧ ∀ other, other ≠ tag → commandOf other (splitCommand tag s) = commandOf other s := by
  unfold splitCommand
  split
  · rename_i hn
    refine ⟨fun c h => ?_, fun _ _ => rfl⟩
    rw [hn] at h
    cases h
  · split
    · refine ⟨fun c h => ?_, fun other hne => commandOf_modifyCommand_other hne _ s⟩
      rw [commandOf_modifyCommand] at h
      obtain ⟨y, -, rfl⟩ := Option.map_eq_some_iff.1 h
      rfl
    · refine ⟨fun c h => ?_, fun other hne => commandOf_modifyCommand_other hne _ s⟩
      have h : commandOf tag (modifyCommand tag _ s) = some c := h
      rw [commandOf_modifyCommand] at h
      obtain ⟨y, -, rfl⟩ := Option.map_eq_some_iff.1 h
      rfl

/-- The commands of a list are OPEN once the HELD ones of the list have been opened. -/
theorem openHeld_opens (ts : List (Fin 32)) (s : State) (tag : Fin 32)
    (h : tag ∈ ts ∨ ∀ c, commandOf tag s = some c → c.held = false) :
    ∀ c, commandOf tag (openHeld ts s) = some c → c.held = false := by
  induction ts generalizing s with
  | nil => exact h.resolve_left (List.not_mem_nil)
  | cons t ts ih =>
    unfold openHeld
    refine ih _ ?_
    obtain ⟨hopen, hother⟩ := splitCommand_tracks t s
    by_cases hin : tag ∈ ts
    · exact Or.inl hin
    refine Or.inr fun c hc => ?_
    by_cases ht : tag = t
    · subst ht
      split at hc
      · exact hopen c hc
      · rename_i hheld
        rw [hc] at hheld
        simpa using hheld
    · have hs : ∀ c, commandOf tag s = some c → c.held = false := h.resolve_left (by simp [ht, hin])
      split at hc
      · rw [hother tag ht] at hc
        exact hs c hc
      · exact hs c hc

theorem openHeld_calm (ts : List (Fin 32)) (s : State) : calmPart (openHeld ts s) = calmPart s := by
  induction ts generalizing s with
  | nil => rfl
  | cons t ts ih =>
    unfold openHeld
    rw [ih]
    split
    · exact splitCommand_calm t s
    · rfl

theorem testFlushCaches_tracks (s : State) :
    (∀ tag c, commandOf tag (testFlushCaches s) = some c → commandOf tag s = some c)
      ∧ ∃ more, (testFlushCaches s).lu.completions = s.lu.completions ++ more :=
  flushCacheSweep_tracks _ _ s

theorem saveToRoute_routes (s : State) (tag : Fin 32) (c : Command) (h : commandOf tag (saveToRoute s) = some c) :
    (∃ y, commandOf tag s = some y ∧ c.held = y.held) ∧ ∀ q ∈ c.pieces, q.state ≠ .waiting .save := by
  unfold saveToRoute at h
  rw [commandOf_mapPieces] at h
  obtain ⟨y, hy, rfl⟩ := Option.map_eq_some_iff.1 h
  refine ⟨⟨y, hy, rfl⟩, fun q hq => ?_⟩
  obtain ⟨p, -, rfl⟩ := List.mem_map.1 hq
  split
  · exact nofun
  · assumption

theorem commandOf_callPass (tag : Fin 32) (s : State) : commandOf tag (callPass s) = commandOf tag s := rfl

theorem callPass_completions (s : State) : (callPass s).lu.completions = s.lu.completions := rfl

theorem splitCommand_cu (tag : Fin 32) (s : State) : (splitCommand tag s).cu = s.cu := by
  unfold splitCommand
  split
  · rfl
  · split
    · rfl
    · rfl

theorem openHeld_cu (ts : List (Fin 32)) (s : State) : (openHeld ts s).cu = s.cu := by
  induction ts generalizing s with
  | nil => rfl
  | cons t ts ih =>
    unfold openHeld
    rw [ih]
    split
    · exact splitCommand_cu t s
    · rfl

theorem flushCacheSweep_cu (ts : List (Fin 32)) (seen : Bool) (s : State) : (flushCacheSweep ts seen s).cu = s.cu := by
  induction ts generalizing seen s with
  | nil => rfl
  | cons t ts ih =>
    unfold flushCacheSweep
    split
    · exact ih _ _
    · split
      · exact ih _ _
      · exact ih _ _

theorem leaveSaving_cu (s : State) : (leaveSaving s).cu = s.cu := by
  have h : (testFlushCaches (openHeld s.ct.arrival s)).cu = s.cu := (flushCacheSweep_cu _ _ _).trans (openHeld_cu _ _)
  unfold leaveSaving
  generalize testFlushCaches (openHeld s.ct.arrival s) = t at h ⊢
  rw [callPass_cu, saveToRoute, mapPieces_cu, h]

/-- When the mode leaves SAVING the commands of the Arrival List are OPEN and no piece waits for the save. -/
theorem leaveSaving_tracks (s : State) :
    (∀ tag ∈ s.ct.arrival, ∀ c, commandOf tag (leaveSaving s) = some c →
        c.held = false ∧ ∀ q ∈ c.pieces, q.state ≠ .waiting .save)
      ∧ ∃ more, (leaveSaving s).lu.completions = s.lu.completions ++ more := by
  have hopens := openHeld_opens s.ct.arrival s
  have hsame : (openHeld s.ct.arrival s).lu.completions = s.lu.completions :=
    congrArg CalmPart.completions (openHeld_calm _ s)
  unfold leaveSaving
  generalize openHeld s.ct.arrival s = o at hopens hsame ⊢
  obtain ⟨hsub, hmore⟩ := testFlushCaches_tracks o
  generalize testFlushCaches o = t at hsub hmore ⊢
  refine ⟨fun tag ht c hc => ?_, ?_⟩
  swap
  · have hroute : (saveToRoute t).lu.completions = t.lu.completions := congrArg CalmPart.completions (saveToRoute_calm t)
    rw [callPass_completions, hroute, ← hsame]
    exact hmore
  rw [commandOf_callPass] at hc
  obtain ⟨⟨y, hy, hheld⟩, hroute⟩ := saveToRoute_routes t tag c hc
  exact ⟨hheld.trans (hopens tag (Or.inl ht) y (hsub tag y hy)), hroute⟩

theorem mapPieces_none {s : State} (hn : ∀ tag, commandOf tag s = none) (f : Fin 32 → Command → Piece → Piece) :
    mapPieces f s = s := by
  have hslots : (mapPieces f s).ct.slots = s.ct.slots := by
    refine Vector.ext fun i hi => ?_
    have hc : s.ct.slots[i].command = none := hn ⟨i, hi⟩
    unfold mapPieces
    rw [Vector.getElem_ofFn]
    have hi : ∀ g : Command → Command, ({ s.ct.slots[i] with command := s.ct.slots[i].command.map g } : TagSlot) = s.ct.slots[i] :=
      fun g => by rw [hc, Option.map_none, ← hc]
    exact hi _
  show { s with ct := { s.ct with slots := (mapPieces f s).ct.slots } } = s
  rw [hslots]

/-- With no slot occupied only a routing pass is called for. -/
theorem leaveSaving_empty {s : State} (ha : s.ct.arrival = []) (hn : ∀ tag, commandOf tag s = none) :
    leaveSaving s = callPass s := by
  unfold leaveSaving testFlushCaches
  simp only [ha, openHeld, flushCacheSweep]
  unfold saveToRoute
  rw [mapPieces_none hn]

/-! ### The end of a save (R174, R175) -/

/-- The mode leaves SAVING: what the Command Tracker and the Migration Engine leave of the state that the save has ended with. -/
theorem resumeAfterSave_saving {u : State} (hm : u.lu.mode = .saving) (hi : u.cu.operation = .idle) :
    basePart (resumeAfterSave u) = basePart { u with lu.mode := .online } ∧ (resumeAfterSave u).cu.operation = .idle
      ∧ (∃ more, (resumeAfterSave u).lu.completions = u.lu.completions ++ more) ∧ (resumeAfterSave u).ct.passDue = true
      ∧ ∀ tag ∈ u.ct.arrival, ∀ c, commandOf tag (resumeAfterSave u) = some c →
          c.held = false ∧ ∀ q ∈ c.pieces, q.state ≠ .waiting .save := by
  have heq : resumeAfterSave u = engineEvent (leaveSaving (unpause { u with lu.mode := .online })) := if_pos hm
  have hbase : basePart (leaveSaving (unpause { u with lu.mode := .online })) = basePart { u with lu.mode := .online } :=
    (leaveSaving_keeps _).base.trans (congrArg CalmPart.base (unpause_calm _))
  obtain ⟨htracks, hmore⟩ := leaveSaving_tracks (unpause { u with lu.mode := .online })
  have hop : (leaveSaving (unpause { u with lu.mode := .online })).cu.operation = .idle :=
    (congrArg CheckpointUnit.operation (leaveSaving_cu _)).trans hi
  have hpass : (leaveSaving (unpause { u with lu.mode := .online })).ct.passDue = true := rfl
  rw [heq]
  generalize leaveSaving (unpause { u with lu.mode := .online }) = v at *
  have hp : PiecesAre .online u.ct.arrival (· = false) (· ≠ .waiting .save) (engineEvent v) :=
    (piecesAre_core (by decide)).mapped.engineEvent ⟨congrArg BasePart.mode hbase, htracks⟩
  have hcomp : (engineEvent v).lu.completions = v.lu.completions := congrArg CalmPart.completions (engineEvent_calm v)
  exact ⟨(congrArg CalmPart.base (engineEvent_calm v)).trans hbase, (operation_core rfl (by decide)).mapped.engineEvent hop,
    hcomp ▸ hmore, passDue_core.mapped.engineEvent hpass, hp.commands⟩

/-- With no command tracked and the Migration Engine at rest the end of a save in SAVING calls for a routing pass and nothing
else. -/
theorem resumeAfterSave_atRest {u : State} (hm : u.lu.mode = .saving) (hr : engineAtRest u) (ha : u.ct.arrival = [])
    (hn : ∀ tag, commandOf tag u = none) : resumeAfterSave u = { u with lu.mode := .online, ct.passDue := true } := by
  have heq : resumeAfterSave u = engineEvent (leaveSaving (unpause { u with lu.mode := .online })) := if_pos hm
  rw [heq, unpause, modifyActive_none (s := { u with lu.mode := .online }) hr.1,
    leaveSaving_empty (s := { u with lu.mode := .online }) ha hn]
  exact engineEvent_atRest (s := callPass { u with lu.mode := .online }) hr

/-- What the end of a save leaves of the state that it has ended with. -/
theorem saveResult_ends {s u t : State} (ht : t = resumeAfterSave u) (hmode : u.lu.mode = s.lu.mode)
    (hmarker : u.lu.marker = .none) (hop : u.cu.operation = .idle) (hct : u.ct = s.ct) (hme : u.me = s.me) (hpm : u.pm = s.pm) :
    (s.lu.mode ≠ .saving → t = u) ∧
    (s.lu.mode = .saving →
      t.lu.mode = .online ∧ t.lu.marker = .none ∧ t.cu.operation = .idle ∧ t.cu.image = u.cu.image
        ∧ (∃ more, t.lu.completions = u.lu.completions ++ more) ∧ t.ct.passDue = true
        ∧ (∀ tag ∈ s.ct.arrival, ∀ c, commandOf tag t = some c →
            c.held = false ∧ ∀ q ∈ c.pieces, q.state ≠ .waiting .save)
        ∧ (engineAtRest s → arrivalExact s → s.ct.arrival = [] →
            t = { u with lu.mode := .online, ct.passDue := true })) := by
  subst ht
  refine ⟨fun hm => if_neg (hmode ▸ hm), fun hm => ?_⟩
  have hsaving : u.lu.mode = .saving := hmode.trans hm
  obtain ⟨hbase, hidle, hmore, hpass, htracks⟩ := resumeAfterSave_saving hsaving hop
  refine ⟨congrArg BasePart.mode hbase, (congrArg BasePart.marker hbase).trans hmarker, hidle, congrArg BasePart.image hbase,
    hmore, hpass, hct ▸ htracks, fun hr harr hempty => ?_⟩
  have hcommands : ∀ tag, commandOf tag u = commandOf tag s := fun tag => by
    unfold commandOf
    rw [hct]
  refine resumeAfterSave_atRest hsaving ?_ (hct ▸ hempty) fun tag => ?_
  · obtain ⟨h1, h2, h3, h4, h5, h6, h7, hy⟩ := hr
    unfold engineAtRest
    rw [hme, hpm]
    exact ⟨h1, h2, h3, h4, h5, h6, h7, fun tag c hc => hy tag c (hcommands tag ▸ hc)⟩
  · rw [hcommands, ← Option.not_isSome_iff_eq_none, ← harr.2, hempty]
    exact List.not_mem_nil

/-- Settles O29. -/
theorem saveEnds : Obligations.SaveEnds := by
  intro s p closed ends
  refine ⟨fun hc => ?_, fun c hc => ?_, fun hc => ?_⟩
  · refine saveResult_ends ?_ rfl rfl rfl rfl rfl rfl
    show saveResult p true s = _
    unfold saveResult
    rw [hc]
    rfl
  · refine saveResult_ends ?_ rfl rfl rfl rfl rfl rfl
    show saveFails p s = _
    unfold saveFails
    rw [hc]
    rfl
  · refine saveResult_ends ?_ rfl rfl rfl rfl rfl rfl
    show saveFails p s = _
    unfold saveFails
    rw [hc]
    rfl

end Sys2Proof.Machine

/-! ## Rebuild's claims and Initialize Components -/

namespace Sys2Proof.Machine

/-! ### The newest claim of a segment (R181) -/

/-- Claim a is newer than claim b: the higher write sequence, or the lower frame at equal ones. -/
def Beats (a b : Claim) : Prop :=
  b.label.writeSeq < a.label.writeSeq ∨ (b.label.writeSeq = a.label.writeSeq ∧ a.frame < b.frame)

theorem winsOver_iff (a b : Claim) : winsOver a b = true ↔ Beats a b := by
  unfold winsOver Beats
  split
  · rename_i h
    simp [h]
  · rename_i h
    simp [Ne.symm h]

theorem Beats.trans {a b c : Claim} (h : Beats a b) (k : Beats b c) : Beats a c := by
  unfold Beats at *
  bv_omega

theorem Beats.asymm {a b : Claim} (h : Beats a b) : ¬ Beats b a := by
  unfold Beats at *
  bv_omega

theorem beats_total {a b : Claim} (h : a.frame ≠ b.frame) (hn : ¬ Beats a b) : Beats b a := by
  unfold Beats at *
  bv_omega

/-- A claim of a list that is newer than every other claim of its segment there. -/
def Newest (cs : List Claim) (c : Claim) : Prop := c ∈ cs ∧ ∀ d ∈ cs, d.segment = c.segment → d ≠ c → Beats c d

theorem newest_unique {cs : List Claim} {a b : Claim} (ha : Newest cs a) (hb : Newest cs b) (h : a.segment = b.segment) :
    a = b := by
  by_contra hne
  exact (ha.2 b hb.1 h.symm (Ne.symm hne)).asymm (hb.2 a ha.1 h hne)

/-- The newest claims of a list with one more claim. -/
theorem newest_concat {cs : List Claim} {x : Claim} (hx : x ∉ cs) (c : Claim) :
    Newest (cs ++ [x]) c ↔
      (Newest cs c ∧ (x.segment = c.segment → Beats c x)) ∨ (c = x ∧ ∀ d ∈ cs, d.segment = x.segment → Beats x d) := by
  unfold Newest
  simp only [List.mem_append, List.mem_singleton]
  constructor
  · rintro ⟨hc | rfl, hall⟩
    · refine .inl ⟨⟨hc, fun d hd => hall d (.inl hd)⟩, fun hs => hall x (.inr rfl) hs ?_⟩
      rintro rfl
      exact hx hc
    · refine .inr ⟨rfl, fun d hd hs => hall d (.inl hd) hs ?_⟩
      rintro rfl
      exact hx hd
  · rintro (⟨⟨hc, hall⟩, hlast⟩ | ⟨rfl, hall⟩)
    · refine ⟨.inl hc, ?_⟩
      rintro d (hd | rfl) hs hne
      · exact hall d hd hs hne
      · exact hlast hs
    · refine ⟨.inr rfl, ?_⟩
      rintro d (hd | rfl) hs hne
      · exact hall d hd hs
      · exact absurd rfl hne

/-- The claimant table after some label reads: the newest claims of the claims read, one for each segment among them. -/
structure TableOf (cs table : List Claim) : Prop where
  newest : ∀ c, c ∈ table ↔ Newest cs c
  every : ∀ d ∈ cs, ∃ c ∈ table, c.segment = d.segment

theorem tableOf_enter {cs table : List Claim} {x : Claim} (h : TableOf cs table) (hx : ∀ d ∈ cs, d.frame ≠ x.frame) :
    TableOf (cs ++ [x]) (enterClaim x table).1 := by
  have hnot : x ∉ cs := fun hin => hx x hin rfl
  rcases enterClaim_cases x table with ⟨hnone, heq⟩ | ⟨d, as, bs, htab, hseg, ⟨hwin, heq⟩ | ⟨hwin, heq⟩⟩
  · have hfresh : ∀ d ∈ cs, d.segment ≠ x.segment := fun d hd hs => by
      obtain ⟨c, hc, hcs⟩ := h.every d hd
      exact hnone c hc (hcs.trans hs)
    rw [heq]
    refine ⟨fun c => ?_, fun d hd => ?_⟩
    · rw [newest_concat hnot, List.mem_append, List.mem_singleton, h.newest]
      refine or_congr (iff_self_and.2 fun hn hs => absurd hs.symm (hfresh c hn.1)) (iff_self_and.2 fun _ d hd hs => ?_)
      exact absurd hs (hfresh d hd)
    · rcases List.mem_append.1 hd with hd | hd
      · obtain ⟨c, hc, hcs⟩ := h.every d hd
        exact ⟨c, List.mem_append_left _ hc, hcs⟩
      · exact ⟨x, by simp, by rw [List.mem_singleton.1 hd]⟩
  · have hdn : Newest cs d := (h.newest d).1 (by simp [htab])
    have hxd : Beats x d := (winsOver_iff x d).1 hwin
    have hxall : ∀ e ∈ cs, e.segment = x.segment → Beats x e := fun e he hs => by
      by_cases hed : e = d
      · exact hed ▸ hxd
      · exact hxd.trans (hdn.2 e he (hs.trans hseg.symm) hed)
    have hmem : ∀ c, c ∈ (table.map fun y => if y.segment == x.segment then x else y) ↔
        (c ∈ table ∧ c.segment ≠ x.segment) ∨ c = x := by
      intro c
      rw [List.mem_map]
      constructor
      · rintro ⟨y, hy, rfl⟩
        by_cases hs : y.segment = x.segment
        · simp [hs]
        · simp [hs, hy]
      · rintro (⟨hc, hs⟩ | rfl)
        · exact ⟨c, hc, by simp [hs]⟩
        · exact ⟨d, by simp [htab], by simp [hseg]⟩
    rw [heq]
    refine ⟨fun c => ?_, fun e he => ?_⟩
    · rw [hmem, newest_concat hnot, h.newest]
      refine or_congr (and_congr_right fun hn => ⟨fun hs hx => absurd hx.symm hs, fun hb hs => ?_⟩)
        (iff_self_and.2 fun _ => hxall)
      exact hxd.asymm (newest_unique hn hdn (hs.trans hseg.symm) ▸ hb hs.symm)
    · by_cases hs : e.segment = x.segment
      · exact ⟨x, (hmem x).2 (.inr rfl), hs.symm⟩
      · have he : e ∈ cs := (List.mem_append.1 he).resolve_right fun h1 => hs (by rw [List.mem_singleton.1 h1])
        obtain ⟨c, hc, hcs⟩ := h.every e he
        exact ⟨c, (hmem c).2 (.inl ⟨hc, hcs ▸ hs⟩), hcs⟩
  · have hdn : Newest cs d := (h.newest d).1 (by simp [htab])
    have hnb : ¬ Beats x d := fun hb => by
      rw [(winsOver_iff x d).2 hb] at hwin
      cases hwin
    have hdx : Beats d x := beats_total (hx d hdn.1).symm hnb
    rw [heq]
    refine ⟨fun c => ?_, fun e he => ?_⟩
    · rw [newest_concat hnot, h.newest]
      constructor
      · exact fun hn => .inl ⟨hn, fun hs => newest_unique hdn hn (hseg.trans hs) ▸ hdx⟩
      · rintro (⟨hn, -⟩ | ⟨-, hall⟩)
        · exact hn
        · exact absurd (hall d hdn.1 hseg) hnb
    · rcases List.mem_append.1 he with he | he
      · exact h.every e he
      · exact ⟨d, by simp [htab], by rw [List.mem_singleton.1 he, hseg]⟩

/-- Settles O32, by induction on the claims read. -/
theorem rebuildKeepsNewestClaim : Obligations.RebuildKeepsNewestClaim := by
  intro cs hnodup
  have htable : TableOf cs (cs.foldl (fun table d => (enterClaim d table).1) []) := by
    induction cs using List.reverseRecOn with
    | nil => exact ⟨fun c => by simp [Newest], fun d hd => absurd hd List.not_mem_nil⟩
    | append_singleton cs x ih =>
      rw [List.map_append, List.nodup_append] at hnodup
      obtain ⟨hcs, -, hdis⟩ := hnodup
      rw [List.foldl_append]
      exact tableOf_enter (ih hcs) fun d hd => hdis _ (List.mem_map_of_mem hd) _ (by simp)
  exact htable.newest

/-! ### Initialize Components (R183) -/

/-- A field that one component's initialization sets and no other changes, after some components have been initialized. -/
theorem initAll_field {α : Type} {get init : State → α} {k : Fin 6}
    (hstep : ∀ c s, get (initComponent c s) = if c = k then init s else get s)
    (hinit : ∀ c s, init (initComponent c s) = init s) (cs : List (Fin 6)) (s : State) :
    get (cs.foldl (fun t c => initComponent c t) s) = if k ∈ cs then init s else get s := by
  induction cs generalizing s with
  | nil => simp
  | cons c cs ih =>
    rw [List.foldl_cons, ih, hinit, hstep]
    by_cases hk : c = k
    · simp [hk]
    · simp [hk, Ne.symm hk]

/-- A field that no component's initialization changes. -/
theorem initAll_same {α : Type} {get : State → α} (hstep : ∀ c s, get (initComponent c s) = get s) (cs : List (Fin 6))
    (s : State) : get (cs.foldl (fun t c => initComponent c t) s) = get s := by
  induction cs generalizing s with
  | nil => rfl
  | cons c cs ih => exact (ih _).trans (hstep c s)

/-- An empty map of the part's frames. -/
def emptyMap (s : State) : SegmentMap :=
  ⟨[], List.replicate s.lu.frameCount ⟨.free, 0⟩, List.range s.lu.frameCount, [], [], 0, s.sm.writeSeq⟩

theorem initAll_sm (cs : List (Fin 6)) (s : State) :
    (cs.foldl (fun t c => initComponent c t) s).sm = if 0 ∈ cs then emptyMap s else s.sm :=
  initAll_field (k := 0) (get := State.sm) (init := emptyMap) (fun c s => by fin_cases c <;> rfl) (fun c s => by fin_cases c <;> rfl) cs s

/-- The Heat Unit after its initialization. -/
def coldHeat (s : State) : HeatUnit := ⟨0, 0, 0, 0, [], s.hu.heatLimit⟩

theorem initAll_hu (cs : List (Fin 6)) (s : State) :
    (cs.foldl (fun t c => initComponent c t) s).hu = if 1 ∈ cs then coldHeat s else s.hu :=
  initAll_field (k := 1) (get := State.hu) (init := coldHeat) (fun c s => by fin_cases c <;> rfl) (fun c s => by fin_cases c <;> rfl) cs s

theorem initAll_ranges (cs : List (Fin 6)) (s : State) :
    (cs.foldl (fun t c => initComponent c t) s).rc.ranges = if 2 ∈ cs then Vector.replicate 16 RangeSlot.initial else s.rc.ranges :=
  initAll_field (k := 2) (get := fun s => s.rc.ranges) (init := fun _ => Vector.replicate 16 RangeSlot.initial)
    (fun c s => by fin_cases c <;> rfl) (fun _ _ => rfl) cs s

theorem initAll_classes (cs : List (Fin 6)) (s : State) :
    (cs.foldl (fun t c => initComponent c t) s).rc.classes
      = if 3 ∈ cs then Vector.replicate 16 ClassRec.initial else s.rc.classes :=
  initAll_field (k := 3) (get := fun s => s.rc.classes) (init := fun _ => Vector.replicate 16 ClassRec.initial)
    (fun c s => by fin_cases c <;> rfl) (fun _ _ => rfl) cs s

theorem initAll_params (cs : List (Fin 6)) (s : State) :
    (cs.foldl (fun t c => initComponent c t) s).params
      = if 3 ∈ cs then Params.defaults.derive s.lu.frameCount else s.params :=
  initAll_field (k := 3) (get := State.params) (init := fun s => Params.defaults.derive s.lu.frameCount)
    (fun c s => by fin_cases c <;> rfl) (fun c s => by fin_cases c <;> rfl) cs s

theorem initAll_streams (cs : List (Fin 6)) (s : State) :
    (cs.foldl (fun t c => initComponent c t) s).streams = if 4 ∈ cs then Vector.replicate 8 StreamRec.initial else s.streams :=
  initAll_field (k := 4) (get := State.streams) (init := fun _ => Vector.replicate 8 StreamRec.initial)
    (fun c s => by fin_cases c <;> rfl) (fun _ _ => rfl) cs s

theorem initAll_stats (cs : List (Fin 6)) (s : State) :
    (cs.foldl (fun t c => initComponent c t) s).stats = if 5 ∈ cs then Vector.replicate 32 0 else s.stats :=
  initAll_field (k := 5) (get := State.stats) (init := fun _ => Vector.replicate 32 0)
    (fun c s => by fin_cases c <;> rfl) (fun _ _ => rfl) cs s

theorem compBit_bit (c k : Fin 6) : (compBit c).getLsbD k.val = decide (c = k) := by
  revert c k
  decide

theorem initAll_inUse (k : Fin 6) (cs : List (Fin 6)) (s : State) :
    (cs.foldl (fun t c => initComponent c t) s).cu.inUse.getLsbD k.val
      = if k ∈ cs then false else s.cu.inUse.getLsbD k.val := by
  refine initAll_field (k := k) (get := fun s => s.cu.inUse.getLsbD k.val) (init := fun _ => false) (fun c s => ?_) (fun _ _ => rfl) cs s
  have hcu : (initComponent c s).cu.inUse = compMinus s.cu.inUse (compBit c) := by fin_cases c <;> rfl
  rw [hcu, compMinus, BitVec.getLsbD_and, BitVec.getLsbD_not, compBit_bit]
  by_cases hk : c = k <;> simp [hk]

theorem initAll_modified (k : Fin 6) (cs : List (Fin 6)) (s : State) :
    (cs.foldl (fun t c => initComponent c t) s).cu.modified.getLsbD k.val
      = if k ∈ cs then true else s.cu.modified.getLsbD k.val := by
  refine initAll_field (k := k) (get := fun s => s.cu.modified.getLsbD k.val) (init := fun _ => true) (fun c s => ?_) (fun _ _ => rfl) cs s
  have hcu : (initComponent c s).cu.modified = s.cu.modified ||| compBit c := by fin_cases c <;> rfl
  rw [hcu, BitVec.getLsbD_or, compBit_bit]
  by_cases hk : c = k <;> simp [hk]

/-- What neither an initialization nor a reconciliation changes. -/
def initKept (s : State) : LinkUnit × Header × MigrationEngine × Scheduler × Scheduler × List HeldRequest × PlatterMonitor
    × CommandTracker :=
  (s.lu, s.cu.image, s.me, s.fps, s.pps, s.held, s.pm, s.ct)

theorem initAll_kept (cs : List (Fin 6)) (s : State) :
    initKept (cs.foldl (fun t c => initComponent c t) s) = initKept s :=
  initAll_same (get := initKept) (fun c s => by fin_cases c <;> rfl) cs s

/-! ### A reconciliation of a map or candidates that are empty (R43) -/

/-- A component stands in InUse and in Modified as it did. -/
def BitsStay (k : Fin 6) (s t : State) : Prop :=
  t.cu.inUse.getLsbD k.val = s.cu.inUse.getLsbD k.val ∧ t.cu.modified.getLsbD k.val = s.cu.modified.getLsbD k.val

theorem bitsStay_touch {c k : Fin 6} (h : c ≠ k) (s : State) : BitsStay k s (touch c s) := by
  unfold BitsStay
  rw [touch_cu_inUse, touch_cu_modified, BitVec.getLsbD_or, BitVec.getLsbD_or, compBit_bit, decide_eq_false h, Bool.or_false,
    Bool.or_false]
  exact ⟨rfl, rfl⟩

theorem bitsStay_discardMapped {k : Fin 6} {s : State} (h : k = 1 → s.hu.candidates = []) : BitsStay k s (discardMapped s) := by
  unfold discardMapped
  split
  · rename_i hany
    refine bitsStay_touch (fun hk => ?_) _
    rw [h hk.symm] at hany
    cases hany
  · exact ⟨rfl, rfl⟩

theorem bitsStay_clampCandidates {k : Fin 6} {s : State} (h : k = 1 → s.hu.candidates = []) :
    BitsStay k s (clampCandidates s) := by
  unfold clampCandidates
  split
  · rename_i hany
    refine bitsStay_touch (fun hk => ?_) _
    rw [h hk.symm] at hany
    cases hany
  · exact ⟨rfl, rfl⟩

theorem bitsStay_clampEntries {k : Fin 6} {s : State} (h : k = 0 → s.sm.entries = []) : BitsStay k s (clampEntries s) := by
  unfold clampEntries
  split
  · rename_i hany
    refine bitsStay_touch (fun hk => ?_) _
    rw [h hk.symm] at hany
    cases hany
  · exact ⟨rfl, rfl⟩

theorem discardMapped_empty {s : State} (h : s.hu.candidates = []) : (discardMapped s).hu.candidates = [] := by
  unfold discardMapped
  split
  · show s.hu.candidates.filter _ = []
    rw [h]
    rfl
  · exact h

theorem clampCandidates_empty {s : State} (h : s.hu.candidates = []) : (clampCandidates s).hu.candidates = [] := by
  unfold clampCandidates
  split
  · show s.hu.candidates.map _ = []
    rw [h]
    rfl
  · exact h

theorem clampCandidates_sm (s : State) : (clampCandidates (discardMapped s)).sm = s.sm := by
  unfold clampCandidates discardMapped
  split
  · split
    · rfl
    · rfl
  · split
    · rfl
    · rfl

/-- A component whose own part is empty where it is C0 or C1 stands in InUse and Modified as it did. -/
theorem bitsStay_reconcile {k : Fin 6} {s : State} (h0 : k = 0 → s.sm.entries = []) (h1 : k = 1 → s.hu.candidates = []) :
    BitsStay k s (reconcile s) := by
  have hd := bitsStay_discardMapped h1
  have hc := bitsStay_clampCandidates (s := discardMapped s) fun hk => discardMapped_empty (h1 hk)
  have he := bitsStay_clampEntries (s := clampCandidates (discardMapped s)) fun hk => by rw [clampCandidates_sm, h0 hk]
  exact ⟨he.1.trans (hc.1.trans hd.1), he.2.trans (hc.2.trans hd.2)⟩

theorem reconcile_sm_empty {s : State} (h : s.sm.entries = []) : (reconcile s).sm = s.sm := by
  have he : clampEntries (clampCandidates (discardMapped s)) = clampCandidates (discardMapped s) := by
    unfold clampEntries
    rw [clampCandidates_sm, h]
    rfl
  unfold reconcile
  rw [he, clampCandidates_sm]

theorem clampEntries_hu (s : State) : (clampEntries s).hu = s.hu := by
  unfold clampEntries
  split
  · rfl
  · rfl

theorem reconcile_candidates_empty {s : State} (h : s.hu.candidates = []) : (reconcile s).hu.candidates = [] := by
  unfold reconcile
  rw [clampEntries_hu]
  exact clampCandidates_empty (discardMapped_empty h)

/-- What a reconciliation leaves as it was. -/
def reconcileKept (s : State) :=
  ((s.lu, s.cu.image, s.me, s.fps, s.pps, s.held, s.pm, s.ct), (s.hu.epoch, s.hu.agingCount, s.hu.timeResidue),
    s.rc, s.params, s.streams, s.stats)

theorem reconcile_kept (s : State) : reconcileKept (reconcile s) = reconcileKept s := by
  have hd : reconcileKept (discardMapped s) = reconcileKept s := by unfold discardMapped; split <;> rfl
  have hc : reconcileKept (clampCandidates (discardMapped s)) = reconcileKept (discardMapped s) := by
    unfold clampCandidates; split <;> rfl
  have he : reconcileKept (reconcile s) = reconcileKept (clampCandidates (discardMapped s)) := by
    unfold reconcile clampEntries; split <;> rfl
  exact he.trans (hc.trans hd)

theorem mem_compList_setOf {named : Byte} (k : Fin 6) : k ∈ compList (setOf named) ↔ named.getLsbD k.val = true := by
  unfold compList
  rw [List.mem_filter]
  have hk : (setOf named).getLsbD k.val = named.getLsbD k.val := by
    rw [setOf_eq, BitVec.getLsbD_ofNat, decide_eq_true k.isLt, Bool.true_and]
    rfl
  have hhas : CompSet.has (setOf named) k = named.getLsbD k.val := hk
  rw [hhas]
  exact and_iff_right (List.mem_finRange k)

theorem reconcileIf_kept (v : CompSet) (s : State) : reconcileKept (reconcileIf v s) = reconcileKept s := by
  unfold reconcileIf
  split
  · exact reconcile_kept s
  · rfl

/-- A named component has left InUse and joined Modified. -/
theorem initializeAll_bits {v : CompSet} {k : Fin 6} (hk : k ∈ compList v) (s : State) :
    (initializeAll v s).cu.inUse.getLsbD k.val = false ∧ (initializeAll v s).cu.modified.getLsbD k.val = true := by
  have hin := initAll_inUse k (compList v) s
  have hmod := initAll_modified k (compList v) s
  have hsm := initAll_sm (compList v) s
  have hhu := initAll_hu (compList v) s
  rw [if_pos hk] at hin hmod
  unfold initializeAll
  generalize (compList v).foldl (fun t c => initComponent c t) s = u at *
  have hstay : BitsStay k u (reconcileIf v u) := by
    unfold reconcileIf
    split
    · refine bitsStay_reconcile (fun h0 => ?_) (fun h1 => ?_)
      · rw [hsm, if_pos (h0 ▸ hk)]
        rfl
      · rw [hhu, if_pos (h1 ▸ hk)]
        rfl
    · exact ⟨rfl, rfl⟩
  exact ⟨hstay.1.trans hin, hstay.2.trans hmod⟩

theorem initializeAll_sm {v : CompSet} (h0 : 0 ∈ compList v) (s : State) : (initializeAll v s).sm = emptyMap s := by
  have hsm := initAll_sm (compList v) s
  rw [if_pos h0] at hsm
  unfold initializeAll
  generalize (compList v).foldl (fun t c => initComponent c t) s = u at *
  unfold reconcileIf
  split
  · exact (reconcile_sm_empty (by rw [hsm]; rfl)).trans hsm
  · exact hsm

theorem initializeAll_candidates {v : CompSet} (h1 : 1 ∈ compList v) (s : State) :
    (initializeAll v s).hu.candidates = [] := by
  have hhu : ((compList v).foldl (fun t c => initComponent c t) s).hu.candidates = [] := by rw [initAll_hu, if_pos h1]; rfl
  unfold initializeAll reconcileIf
  split
  · exact reconcile_candidates_empty hhu
  · exact hhu

/-- The fields that no component but one holds, and those that none holds. -/
theorem initializeAll_fields (v : CompSet) (s : State) :
    let t := initializeAll v s
    initKept t = initKept s
      ∧ (t.hu.epoch, t.hu.agingCount, t.hu.timeResidue)
          = (if 1 ∈ compList v then (0, 0, 0) else (s.hu.epoch, s.hu.agingCount, s.hu.timeResidue))
      ∧ t.rc.ranges = (if 2 ∈ compList v then Vector.replicate 16 RangeSlot.initial else s.rc.ranges)
      ∧ t.rc.classes = (if 3 ∈ compList v then Vector.replicate 16 ClassRec.initial else s.rc.classes)
      ∧ t.params = (if 3 ∈ compList v then Params.defaults.derive s.lu.frameCount else s.params)
      ∧ t.streams = (if 4 ∈ compList v then Vector.replicate 8 StreamRec.initial else s.streams)
      ∧ t.stats = (if 5 ∈ compList v then Vector.replicate 32 0 else s.stats) := by
  intro t
  have hkept : reconcileKept t = reconcileKept ((compList v).foldl (fun t c => initComponent c t) s) := reconcileIf_kept v _
  simp only [reconcileKept, Prod.mk.injEq] at hkept
  obtain ⟨⟨k1, k2, k3, k4, k5, k6, k7, k8⟩, ⟨e1, e2, e3⟩, hrc, hparams, hstreams, hstats⟩ := hkept
  refine ⟨?_, ?_, hrc ▸ initAll_ranges _ s, hrc ▸ initAll_classes _ s, hparams ▸ initAll_params _ s,
    hstreams ▸ initAll_streams _ s, hstats ▸ initAll_stats _ s⟩
  · refine Eq.trans ?_ (initAll_kept (compList v) s)
    unfold initKept
    rw [k1, k2, k3, k4, k5, k6, k7, k8]
  · rw [e1, e2, e3, initAll_hu]
    split
    · rfl
    · rfl

theorem withCompletion_lu (r : Completion) {s t : State} (h : t.lu = s.lu) :
    (withCompletion r t).lu = (withCompletion r s).lu := by
  unfold withCompletion
  rw [h]

/-- Settles O33: each field is set by one component's initialization, and the reconciliation that follows meets a map or
candidates that are empty where C0 or C1 is named. -/
theorem initializeComponents : Obligations.InitializeComponents := by
  intro h named s hm
  have hnamed : ∀ k : Fin 6, (k ∈ compList (setOf named)) = (named.getLsbD k.val = true) :=
    fun k => propext (mem_compList_setOf k)
  have hhas : CompSet.has (setOf named) 0 = named.getLsbD 0 := by
    have h0 := hnamed 0
    simp only [compList, List.mem_filter, List.mem_finRange, true_and] at h0
    exact Bool.eq_iff_iff.2 (h0 ▸ Iff.rfl)
  refine ⟨fun hs => ?_, fun hs h0 hf => ?_, fun hs hf => ?_⟩
  · refine transaction_refused hm _ ?_ _
    unfold checkInitialize
    rw [setInRange_of_ge hs]
    rfl
  · refine transaction_refused hm _ ?_ _
    unfold checkInitialize
    rw [setInRange_of_lt hs, hhas, h0, hf]
    rfl
  · have hnone : checkInitialize named s = none := by
      have hbusy : (named.getLsbD 0 && frameOrders s) = false := Bool.and_eq_false_imp.2 hf
      unfold checkInitialize
      rw [setInRange_of_lt hs, hhas, hbusy]
      rfl
    refine ⟨_, transaction_accepted hm _ hnone _, ?_⟩
    obtain ⟨hkept, hheat, hranges, hclasses, hparams, hstreams, hstats⟩ := initializeAll_fields (setOf named) s
    have hbits := fun k hk => initializeAll_bits (v := setOf named) (k := k) hk s
    have hsm := fun hk => initializeAll_sm (v := setOf named) hk s
    have hcand := fun hk => initializeAll_candidates (v := setOf named) hk s
    have n0 : (0 ∈ compList (setOf named)) = (named.getLsbD 0 = true) := hnamed 0
    have n1 : (1 ∈ compList (setOf named)) = (named.getLsbD 1 = true) := hnamed 1
    have n2 : (2 ∈ compList (setOf named)) = (named.getLsbD 2 = true) := hnamed 2
    have n3 : (3 ∈ compList (setOf named)) = (named.getLsbD 3 = true) := hnamed 3
    have n4 : (4 ∈ compList (setOf named)) = (named.getLsbD 4 = true) := hnamed 4
    have n5 : (5 ∈ compList (setOf named)) = (named.getLsbD 5 = true) := hnamed 5
    simp only [n0, n1, n2, n3, n4, n5] at hheat hranges hclasses hparams hstreams hstats hsm hcand
    simp only [hnamed] at hbits
    generalize initializeAll (setOf named) s = t at *
    simp only [initKept, Prod.mk.injEq] at hkept
    obtain ⟨hlu, himage, hme, hfps, hpps, hheld, hpm, hct⟩ := hkept
    unfold reply
    simp only [complete_sm, complete_hu, complete_rc, complete_params, complete_streams, complete_stats, complete_cu,
      complete_me, complete_fps, complete_pps, complete_held, complete_pm, complete_ct]
    refine ⟨?_, hbits, hsm, fun h1 => ?_, fun h1 => ?_, fun i => ?_, fun i => ?_, fun h3 => ?_, fun h3 => ?_, fun h4 i => ?_,
      fun h4 => ?_, fun i => ?_, himage, hme, hfps, hpps, hheld, hpm, hct⟩
    · exact withCompletion_lu (answered 15 h false .none) hlu
    · rw [if_pos h1] at hheat
      simp only [Prod.mk.injEq] at hheat
      obtain ⟨h1e, h1a, h1t⟩ := hheat
      exact ⟨h1e, h1a, h1t, hcand h1⟩
    · rw [if_neg (by rw [h1]; exact Bool.false_ne_true)] at hheat
      exact congrArg Prod.fst hheat
    · refine (congrArg (fun v : Vector _ 16 => v[i]) hranges).trans ?_
      split
      · exact Vector.getElem_replicate _
      · rfl
    · refine (congrArg (fun v : Vector _ 16 => v[i]) hclasses).trans ?_
      split
      · exact Vector.getElem_replicate _
      · rfl
    · rw [hparams, if_pos h3]
      rfl
    · rw [hparams, if_neg (by rw [h3]; exact Bool.false_ne_true)]
    · refine (congrArg (fun v : Vector _ 8 => v[i]) (hstreams.trans (if_pos h4))).trans ?_
      exact Vector.getElem_replicate _
    · rw [hstreams, if_neg (by rw [h4]; exact Bool.false_ne_true)]
    · refine (congrArg (fun v : Vector _ 32 => v[i]) hstats).trans ?_
      split
      · exact Vector.getElem_replicate _
      · rfl

end Sys2Proof.Machine

/-! ## A command taken in ONLINE: its pieces, and the FLUSH_CACHE test -/

namespace Sys2Proof.Machine

/-! ### The positions of a piece (R75) -/

theorem rangeMask_bit {lo hi i : Nat} (hi128 : i < 128) : (rangeMask lo hi).getLsbD i = true ↔ lo ≤ i ∧ i < hi := by
  unfold rangeMask
  rw [BitVec.getLsbD_ofNat, decide_eq_true hi128, Bool.true_and, Nat.testBit_mul_two_pow, Nat.testBit_two_pow_sub_one,
    Bool.and_eq_true, decide_eq_true_iff, decide_eq_true_iff]
  omega

theorem newPiece_bit (c : Command) (segment : Nat) {i : Nat} (hi : i < 128) :
    (newPiece c segment).sectors.getLsbD i = true ↔ c.start ≤ 128 * segment + i ∧ 128 * segment + i < c.start + c.length := by
  show (rangeMask _ _).getLsbD i = true ↔ _
  rw [rangeMask_bit hi]
  omega

theorem ended_eq_false (p : Piece) : ended p = false ↔ p.state ≠ .done ∧ p.state ≠ .failed := by
  simp [ended]

/-- The hold of R77 said with the commands that stand before a command that was just taken. -/
theorem overlapHeld_taken {d : Descriptor} {s : State} (ha : arrivalExact s) (hfree : commandOf d.tag s = none)
    (hk : d.kind ≠ .flushCache) {c : Command} {u : State} (hu : u.ct = (occupySlot d.tag c s).ct) (p : Piece) :
    overlapHeld d.tag d.kind p u = true ↔ ∃ e ∈ s.ct.arrival, ∃ y, commandOf e s = some y
      ∧ (d.kind ≠ .read ∨ y.kind = .write ∨ y.kind = .trim)
      ∧ ∃ q ∈ y.pieces, q.segment = p.segment ∧ q.sectors &&& p.sectors ≠ 0 ∧ q.state ≠ .done ∧ q.state ≠ .failed := by
  have hnot : ∀ e ∈ s.ct.arrival, e ≠ d.tag := fun e he heq => by
    have := (ha.2 e).1 he
    rw [heq, hfree] at this
    cases this
  have hsame : ∀ e ∈ s.ct.arrival, commandOf e u = commandOf e s := fun e he => by
    unfold commandOf
    rw [hu, occupySlot_other (hnot e he)]
  have hbefore : u.ct.arrival.takeWhile (fun t => t != d.tag) = s.ct.arrival := by
    rw [hu]
    show (s.ct.arrival ++ [d.tag]).takeWhile _ = _
    rw [List.takeWhile_append_of_pos fun e he => bne_iff_ne.2 (hnot e he)]
    simp
  have hchanges : ∀ y : Command, (changes d.kind || changes y.kind) = true ↔ d.kind ≠ .read ∨ y.kind = .write ∨ y.kind = .trim := by
    intro y
    unfold changes
    cases hd : d.kind <;> simp_all
  unfold overlapHeld earlierCommands
  rw [hbefore, List.any_eq_true]
  simp only [List.mem_filterMap, Bool.and_eq_true, hchanges, List.any_eq_true, overlaps, bne_iff_ne, beq_iff_eq,
    Bool.not_eq_true', ended_eq_false]
  constructor
  · rintro ⟨y, ⟨e, he, hy⟩, hc, q, hq, ⟨hs, ho⟩, hend⟩
    exact ⟨e, he, y, hsame e he ▸ hy, hc, q, hq, hs, ho, hend⟩
  · rintro ⟨e, he, y, hy, hc, q, hq, hs, ho, hend⟩
    exact ⟨y, ⟨e, he, (hsame e he).trans hy⟩, hc, q, hq, ⟨hs, ho⟩, hend⟩

/-- The piece that a split makes of a segment (R75, R77). -/
def splitPiece (tag : Fin 32) (c : Command) (s : State) (segment : Nat) : Piece :=
  { newPiece c segment with
    state := if overlapHeld tag c.kind (newPiece c segment) s then .held false else .waiting .route }

theorem splitCommand_pieces {tag : Fin 32} {c : Command} {s : State} (hc : commandOf tag s = some c) (hk : c.kind ≠ .flushCache) :
    splitCommand tag s = callPass (modifyCommand tag
      (fun c' => { c' with held := false, pieces := (segmentsOf c).map (splitPiece tag c s) }) s) := by
  have hpiece : ∀ seg, splitPiece tag c s seg =
      (if overlapHeld tag c.kind (newPiece c seg) s then { newPiece c seg with state := .held false } else newPiece c seg) := by
    intro seg
    unfold splitPiece
    split
    · rfl
    · rfl
  unfold splitCommand
  rw [hc]
  dsimp only
  rw [if_neg hk]
  simp only [← hpiece]

theorem segmentsOf_eq {c : Command} (h : c.length ≠ 0) :
    segmentsOf c = (List.range ((c.start + c.length - 1) / 128 - c.start / 128 + 1)).map (c.start / 128 + ·) := if_neg h

/-- Settles O10. -/
theorem descriptorTakenOnline : Obligations.DescriptorTakenOnline := by
  intro d s hl ha hr hm hfree hk h0 hlen haddr
  have ht := exec_commandDescriptor_taken hl (descriptorRefusal_none hr (.inl hm) hfree (.inr ⟨h0, hlen, haddr⟩))
  obtain ⟨c, hc⟩ : ∃ c, c = commandRecord d (consultFor d s).1 s := ⟨_, rfl⟩
  have hct := tracked1_ct d s
  have hstats := tracked1_stats d s
  have hp := tracked1_take d s
  rw [takeDescriptor_eq, openCommand, tracked1_lu, if_neg (by rw [hm]; decide), if_neg hk] at ht
  rw [← hc] at hct hp
  generalize tracked1 d s = u at ht hct hstats hp
  simp only [takePart, TakePart.mk.injEq] at hp
  obtain ⟨hlu, -, hsm, hcand, hrc, hpa, hme, hfp, hhe, hpp, hpm⟩ := hp
  have hcu : commandOf d.tag u = some c := by
    unfold commandOf
    rw [hct, occupySlot_same]
  have hck : c.kind = d.kind := by rw [hc]; rfl
  rw [splitCommand_pieces hcu (hck ▸ hk)] at ht
  refine ⟨_, { c with held := false, pieces := (segmentsOf c).map (splitPiece d.tag c u) }, ht, ?_, ?_⟩
  · show (modifyCommand d.tag _ u).ct.slots[d.tag] = _
    rw [modifyCommand_same, hct, occupySlot_same]
    rfl
  subst hc
  refine ⟨rfl, rfl, rfl, rfl, rfl, rfl, rfl, rfl, ?_, fun p hp => ?_, fun tag hne => ?_, ?_, rfl, hstats, hlu, hsm, hrc, hpa, hme,
    hfp, hhe, hpp, hpm, hcand⟩
  · rw [List.map_map]
    refine Eq.trans (List.map_congr_left fun seg _ => (rfl : _ = id seg)) ((List.map_id _).trans ?_)
    exact segmentsOf_eq (c := commandRecord d (consultFor d s).1 s) h0
  · obtain ⟨seg, -, rfl⟩ := List.mem_map.1 hp
    refine ⟨rfl, rfl, rfl, rfl, rfl, fun i hi => newPiece_bit _ seg hi, ?_, ?_⟩
    · show (if _ then _ else _) = _ ∨ (if _ then _ else _) = _
      split
      · exact .inr rfl
      · exact .inl rfl
    · refine Iff.trans ?_ (overlapHeld_taken ha hfree hk hct (newPiece (commandRecord d (consultFor d s).1 s) seg))
      show (if _ then _ else _) = _ ↔ _
      split
      · rename_i hov
        exact iff_of_true rfl hov
      · rename_i hov
        exact iff_of_false nofun hov
  · show (modifyCommand d.tag _ u).ct.slots[tag] = _
    rw [modifyCommand_other hne, hct, occupySlot_other hne]
  · show u.ct.arrival = _
    rw [hct]
    rfl

/-! ### The FLUSH_CACHE test (R87) -/

theorem flushCacheSweep_seen (ts : List (Fin 32)) (s : State) : flushCacheSweep ts true s = s := by
  induction ts with
  | nil => rfl
  | cons t ts ih =>
    unfold flushCacheSweep
    split
    · exact ih
    · rw [if_neg (by simp), Bool.true_or, ih]

/-- A sweep passes over commands that are no FLUSH_CACHE, and has seen a WRITE where one of them is one. -/
theorem flushCacheSweep_others {ts us : List (Fin 32)} {seen : Bool} {s : State}
    (h : ∀ e ∈ ts, ∀ y, commandOf e s = some y → y.kind ≠ .flushCache) :
    flushCacheSweep (ts ++ us) seen s
      = flushCacheSweep us (seen || ts.any fun e => (commandOf e s).any fun y => y.kind == .write) s := by
  induction ts generalizing seen with
  | nil => simp
  | cons t ts ih =>
    have ih := fun seen => ih (seen := seen) fun e he => h e (List.mem_cons_of_mem t he)
    rw [List.cons_append, flushCacheSweep, List.any_cons]
    cases hc : commandOf t s with
    | none => simp [ih]
    | some c =>
      have hk := h t (by simp) c hc
      simp [hk, ih, Bool.or_assoc]

theorem freeSlot_other {tag x : Fin 32} (h : x ≠ tag) (s : State) : (freeSlot tag s).ct.slots[x] = s.ct.slots[x] := by
  have hv : ¬ tag.val = x.val := fun e => h (Fin.ext e.symm)
  simp only [Fin.getElem_fin, freeSlot]
  exact Vector.getElem_set_ne (h := hv) ..

/-- What a sweep leaves of the tags that it does not pass over. -/
theorem flushCacheSweep_elsewhere (ts : List (Fin 32)) (seen : Bool) (s : State) :
    let t := flushCacheSweep ts seen s
    (∀ x, x ∉ ts → t.ct.slots[x] = s.ct.slots[x] ∧ (x ∈ s.ct.arrival → x ∈ t.ct.arrival))
      ∧ t.sm = s.sm ∧ t.fps = s.fps ∧ t.pps = s.pps ∧ t.me = s.me := by
  induction ts generalizing seen s with
  | nil => exact ⟨fun x _ => ⟨rfl, id⟩, rfl, rfl, rfl, rfl⟩
  | cons t ts ih =>
    unfold flushCacheSweep
    split
    · obtain ⟨hx, hrest⟩ := ih seen s
      exact ⟨fun x hn => hx x fun hin => hn (List.mem_cons_of_mem t hin), hrest⟩
    · split
      · obtain ⟨hx, hsm, hfps, hpps, hme⟩ := ih seen (complete (.command t .good .none) (freeSlot t s))
        refine ⟨fun x hn => ?_, hsm, hfps, hpps, hme⟩
        have hne : x ≠ t := fun he => hn (he ▸ List.mem_cons_self)
        obtain ⟨hslot, harr⟩ := hx x fun hin => hn (List.mem_cons_of_mem t hin)
        exact ⟨hslot.trans (freeSlot_other hne s), fun hin => harr (List.mem_filter.2 ⟨hin, bne_iff_ne.2 hne⟩)⟩
      · obtain ⟨hx, hrest⟩ := ih (seen || _) s
        exact ⟨fun x hn => hx x fun hin => hn (List.mem_cons_of_mem t hin), hrest⟩

/-- A sweep over two lists is a sweep over the first and one over the second. -/
theorem flushCacheSweep_append (ts us : List (Fin 32)) (seen : Bool) (s : State) :
    ∃ seen', flushCacheSweep (ts ++ us) seen s = flushCacheSweep us seen' (flushCacheSweep ts seen s) := by
  induction ts generalizing seen s with
  | nil => exact ⟨seen, rfl⟩
  | cons t ts ih =>
    rw [List.cons_append, flushCacheSweep, flushCacheSweep]
    cases commandOf t s with
    | none => exact ih _ _
    | some c =>
      dsimp only
      split
      · exact ih _ _
      · exact ih _ _

/-- A FLUSH_CACHE taken in ONLINE: the state in which the sweep begins. -/
theorem flushCache_taken {d : Descriptor} {s : State} (hl : linkReady s) (hr : s.lu.marker ≠ .resetEngine)
    (hm : s.lu.mode = .online) (hfree : commandOf d.tag s = none) (hk : d.kind = .flushCache) :
    ∃ w c, exec (.commandDescriptor d) s = .next (flushCacheSweep (s.ct.arrival ++ [d.tag]) false w)
      ∧ c.kind = .flushCache ∧ c.held = false ∧ c.pieces = []
      ∧ w.ct.slots[d.tag] = ⟨s.ct.slots[d.tag].useNo + 1, some c⟩
      ∧ (∀ x, x ≠ d.tag → w.ct.slots[x] = s.ct.slots[x]) ∧ w.ct.arrival = s.ct.arrival ++ [d.tag]
      ∧ w.lu = s.lu ∧ w.sm = s.sm ∧ w.fps = s.fps ∧ w.pps = s.pps ∧ w.me = s.me := by
  have ht := exec_commandDescriptor_taken hl (descriptorRefusal_none hr (.inl hm) hfree (.inl hk))
  obtain ⟨c, hc⟩ : ∃ c, c = commandRecord d (consultFor d s).1 s := ⟨_, rfl⟩
  have hct := tracked1_ct d s
  have hp := tracked1_take d s
  rw [takeDescriptor_eq, openCommand, tracked1_lu, if_neg (by rw [hm]; decide), if_pos hk] at ht
  rw [← hc] at hct hp
  generalize tracked1 d s = u at ht hct hp
  simp only [takePart, TakePart.mk.injEq] at hp
  obtain ⟨hlu, -, hsm, -, -, -, hme, hfp, -, hpp, -⟩ := hp
  have hcu : commandOf d.tag u = some c := by
    unfold commandOf
    rw [hct, occupySlot_same]
  have hck : c.kind = .flushCache := by rw [hc]; exact hk
  have hsplit : splitCommand d.tag u = modifyCommand d.tag (fun c => { c with held := false }) u := by
    unfold splitCommand
    rw [hcu]
    exact if_pos hck
  have harr : u.ct.arrival = s.ct.arrival ++ [d.tag] := by rw [hct]; rfl
  rw [hsplit, testFlushCaches] at ht
  refine ⟨modifyCommand d.tag (fun c => { c with held := false }) u, { c with held := false }, harr ▸ ht, hck, rfl,
    (by rw [hc]; rfl), ?_, fun x hx => ?_, harr, hlu, hsm, hfp, hpp, hme⟩
  · rw [modifyCommand_same, hct, occupySlot_same]
    rfl
  · rw [modifyCommand_other hx, hct, occupySlot_other hx]

/-- Settles O12. -/
theorem flushCacheWaitsForWrites : Obligations.FlushCacheWaitsForWrites := by
  intro d s hl ha hr hm hfree hk
  obtain ⟨w, c, hexec, hck, hheld, hpieces, hslot, hother, harr, hlu, hsm, hfps, hpps, hme⟩ := flushCache_taken hl hr hm hfree hk
  have hnot : d.tag ∉ s.ct.arrival := fun hin => by
    have := (ha.2 d.tag).1 hin
    rw [hfree] at this
    cases this
  have hsame : ∀ e ∈ s.ct.arrival, commandOf e w = commandOf e s := fun e he =>
    congrArg TagSlot.command (hother e fun heq => hnot (heq ▸ he))
  have hcw : commandOf d.tag w = some c := congrArg TagSlot.command hslot
  refine ⟨fun hall => ?_, fun before e rest y hsplit hy hw => ?_⟩
  · have hpass : flushCacheSweep (s.ct.arrival ++ [d.tag]) false w = complete (.command d.tag .good .none) (freeSlot d.tag w) := by
      have hkind : ∀ e ∈ s.ct.arrival, ∀ y, commandOf e w = some y → y.kind = .read ∨ y.kind = .trim :=
        fun e he y hy => hall e he y (hsame e he ▸ hy)
      have hseen : (s.ct.arrival.any fun e => (commandOf e w).any fun y => y.kind == .write) = false := by
        rw [List.any_eq_false]
        intro e he hy
        obtain ⟨y, hy, hkw⟩ := (Option.any_eq_true _ _).1 hy
        rcases hkind e he y hy with h | h <;> simp [h] at hkw
      rw [flushCacheSweep_others fun e he y hy => by rcases hkind e he y hy with h | h <;> simp [h], hseen]
      simp [flushCacheSweep, hcw, hck, hheld]
    refine ⟨complete (.command d.tag .good .none) (freeSlot d.tag w), hpass ▸ hexec, ?_, ?_, ?_, fun tag hne => (freeSlot_other hne w).trans (hother tag hne), hsm, hfps, hpps, hme⟩
    · show w.lu.completions ++ _ = _
      rw [hlu]
    · show (freeSlot d.tag w).ct.slots[d.tag] = _
      have hw : w.ct.slots[d.tag.val] = ⟨s.ct.slots[d.tag].useNo + 1, some c⟩ := hslot
      simp [freeSlot, hw]
    · show w.ct.arrival.filter _ = _
      rw [harr, List.filter_append, List.filter_eq_self.2 fun e he => bne_iff_ne.2 (ne_of_mem_of_not_mem he hnot)]
      simp
  · have hbefore : ∀ x ∈ before, x ∈ s.ct.arrival := fun x hx => by rw [hsplit]; exact List.mem_append_left _ hx
    have hein : e ∈ s.ct.arrival := by rw [hsplit]; simp
    have hen : e ∉ before := fun hin => by
      have hnd := ha.1
      rw [hsplit, List.nodup_append] at hnd
      exact hnd.2.2 e hin e (by simp) rfl
    have hstop : ∀ (seen : Bool) (v : State), commandOf e v = some y →
        flushCacheSweep (e :: (rest ++ [d.tag])) seen v = v := fun seen v hv => by
      rw [flushCacheSweep, hv]
      simp [hw, flushCacheSweep_seen]
    have hlist : s.ct.arrival ++ [d.tag] = before ++ e :: (rest ++ [d.tag]) := by rw [hsplit]; simp
    obtain ⟨hx, tsm, tfps, tpps, tme⟩ := flushCacheSweep_elsewhere before false w
    have hsweep : flushCacheSweep (s.ct.arrival ++ [d.tag]) false w = flushCacheSweep before false w := by
      obtain ⟨seen, happ⟩ := flushCacheSweep_append before (e :: (rest ++ [d.tag])) false w
      rw [hlist, happ]
      exact hstop seen _ ((congrArg TagSlot.command (hx e hen).1).trans ((hsame e hein).trans hy))
    obtain ⟨tslot, tarr⟩ := hx d.tag fun hin => hnot (hbefore _ hin)
    refine ⟨flushCacheSweep before false w, c, hsweep ▸ hexec, tslot.trans hslot, hck, hheld, hpieces, tarr (by rw [harr]; simp),
      tsm.trans hsm, tfps.trans hfps, tpps.trans hpps, tme.trans hme, fun hnone => ?_⟩
    have hstay : flushCacheSweep before false w = w := by
      have := flushCacheSweep_others (ts := before) (us := []) (seen := false) (s := w)
        fun x hx z hz => hnone x hx z (hsame x (hbefore x hx) ▸ hz)
      rwa [List.append_nil] at this
    rw [hstay]
    exact ⟨congrArg LinkUnit.completions hlu, harr, hother⟩

end Sys2Proof.Machine

/-! ## The Segment Map: absorbs, flushes and the victim scan (R7, R16, R26) -/

namespace Sys2Proof.Machine

/-! ### An entry changed in its place -/

theorem entryAt_mapEntry {g : Nat} {f : Entry → Entry} (hf : ∀ e, (f e).segment = e.segment) (k : Nat) (es : List Entry) :
    entryAt k (mapEntry g f es) = if k = g then (entryAt k es).map f else entryAt k es := by
  unfold entryAt mapEntry
  have hseg : ((fun e : Entry => e.segment == k) ∘ fun e => if (e.segment == g) = true then f e else e)
      = fun e => e.segment == k := by
    funext e
    dsimp only [Function.comp]
    split
    · rw [hf]
    · rfl
  rw [List.find?_map, hseg]
  cases h : es.find? fun e => e.segment == k with
  | none => simp
  | some e =>
    have hk : e.segment = k := by simpa using List.find?_some h
    by_cases hg : k = g
    · simp [hk, hg]
    · simp [hk, hg]

/-- The entry of a segment and the others after one has been changed in its place. -/
theorem lookup_of_mapEntry {g : Nat} {f : Entry → Entry} (hf : ∀ e, (f e).segment = e.segment) {s t : State} {e : Entry}
    (ht : t.sm.entries = mapEntry g f s.sm.entries) (he : lookup g s = some e) :
    lookup g t = some (f e) ∧ ∀ k, k ≠ g → lookup k t = lookup k s := by
  have hat : ∀ k, lookup k t = if k = g then (lookup k s).map f else lookup k s := fun k => by
    rw [← entryAt_eq, ht, entryAt_mapEntry hf]
    rfl
  exact ⟨by rw [hat, if_pos rfl, he, Option.map_some], fun k hk => by rw [hat, if_neg hk]⟩

/-! ### An absorb's OK (R7) -/

/-- An entry after an absorb's OK. -/
def absorbed (v : SectorSet) (x : Entry) : Entry :=
  { x with
    validity := validityOf (validSet x ||| v)
    generation := x.generation + 1
    absorbs := x.absorbs - 1
    flushFailures := 0
    state := if x.state = .fresh || x.state = .clean then .dirty else x.state }

theorem absorbed_segment (v : SectorSet) (x : Entry) : (absorbed v x).segment = x.segment := rfl

/-- A NEW or CLEAN entry leaves the Reclaim List for the tail of the Dirty List; the lists keep any other entry where it is. -/
theorem absorbOk_sm {g f : Nat} {v : SectorSet} {s : State} {e : Entry} (he : lookup g s = some e) (hf : e.frame = f) :
    (absorbOk g f v s).sm = if e.state = .fresh ∨ e.state = .clean then
        { s.sm with
          entries := mapEntry g (absorbed v) s.sm.entries
          reclaim := s.sm.reclaim.filter fun x => x != g
          dirty := (s.sm.dirty.filter fun x => x != g) ++ [g]
          dirtyCount := s.sm.dirtyCount + 1 }
      else { s.sm with entries := mapEntry g (absorbed v) s.sm.entries } := by
  have hm : matching g f s = some e := Option.filter_eq_some_iff.2 ⟨he, beq_iff_eq.2 hf⟩
  unfold absorbOk
  rw [hm]
  dsimp only
  cases hst : e.state with
  | fresh => exact congrArg MapPart.sm (mapPart_setDirtyCount _ _)
  | clean => exact congrArg MapPart.sm (mapPart_setDirtyCount _ _)
  | dirty => rfl
  | inbound => rfl
  | flushing => cases e.marker <;> rfl

/-! ### The finish of a flush (R16) -/

/-- An entry after the finish of a flush that nothing has overtaken. -/
def flushedClean (x : Entry) : Entry := { x with state := .clean, marker := none, flushFailures := 0 }

/-- An entry that a flush returns DIRTY, with no failure counted. -/
def flushedDirty (x : Entry) : Entry := { x with state := .dirty, marker := none, flushFailures := min 3 (x.flushFailures + 0) }

theorem flushFinish_clean {g : Nat} {n : Byte} {s : State} {e : Entry} (he : lookup g s = some e) (hm : e.marker = some n)
    (hst : e.state = .flushing) :
    (flushFinish g n (some e.generation) false s).1 = some true
      ∧ (flushFinish g n (some e.generation) false s).2.sm =
        { s.sm with
          entries := mapEntry g flushedClean s.sm.entries
          reclaim := (s.sm.reclaim.filter fun x => x != g) ++ [g]
          dirtyCount := s.sm.dirtyCount - 1 } := by
  have hk : marked g n s = some e := Option.filter_eq_some_iff.2 ⟨he, beq_iff_eq.2 hm⟩
  unfold flushFinish
  rw [hk]
  dsimp only
  rw [if_neg (by simp [hst]), if_pos (by simp)]
  refine ⟨rfl, (congrArg MapPart.sm (mapPart_askLabelUpdate _ _ _)).trans ?_⟩
  exact congrArg MapPart.sm (mapPart_setDirtyCount _ _)

theorem flushFinish_dirty {g : Nat} {n : Byte} {captured : Option Byte} {overtaken : Bool} {s : State} {e : Entry}
    (he : lookup g s = some e) (hm : e.marker = some n) (hst : e.state = .flushing)
    (hc : captured ≠ some e.generation ∨ overtaken = true) :
    (flushFinish g n captured overtaken s).1 = some false
      ∧ (flushFinish g n captured overtaken s).2.sm =
        { s.sm with
          entries := mapEntry g flushedDirty s.sm.entries
          dirty := g :: s.sm.dirty } := by
  have hk : marked g n s = some e := Option.filter_eq_some_iff.2 ⟨he, beq_iff_eq.2 hm⟩
  unfold flushFinish
  rw [hk]
  dsimp only
  rw [if_neg (by simp [hst]), if_neg (by rcases hc with hc | hc <;> simp [hc])]
  exact ⟨rfl, rfl⟩

/-- Settles O43. -/
theorem absorbsAndFlushes : Obligations.AbsorbsAndFlushes := by
  refine ⟨?_, ?_⟩
  · intro g f v s e he hf written
    have hsm := absorbOk_sm (v := v) he hf
    have hentries : (absorbOk g f v s).sm.entries = mapEntry g (absorbed v) s.sm.entries := by
      rw [hsm]
      split
      · rfl
      · rfl
    obtain ⟨hg, hother⟩ := lookup_of_mapEntry (absorbed_segment v) hentries he
    refine ⟨fun hst => ?_, fun hst => ?_, hother, ?_, ?_⟩
    · have hnew : absorbed v e = { written with state := .dirty } := by
        rcases hst with hst | hst <;> simp [absorbed, hst, written]
      rw [if_pos hst] at hsm
      rw [hg, hnew, hsm]
      exact ⟨rfl, rfl, rfl, rfl⟩
    · have hold : absorbed v e = written := by
        rcases hst with hst | hst <;> simp [absorbed, hst, written]
      rw [if_neg (by rcases hst with hst | hst <;> simp [hst])] at hsm
      rw [hg, hold, hsm]
      exact ⟨rfl, rfl, rfl, rfl⟩
    · rw [hsm]
      split
      · rfl
      · rfl
    · rw [hsm]
      split
      · rfl
      · rfl
  · intro g n captured overtaken s e he hm hst t
    refine ⟨fun hc ho => ?_, fun hc => ?_⟩
    · have ht : t = (flushFinish g n (some e.generation) false s).2 := by rw [← hc, ← ho]
      obtain ⟨h1, hsm⟩ := flushFinish_clean he hm hst
      rw [ht, hc, ho]
      refine ⟨h1, (lookup_of_mapEntry (f := flushedClean) (fun _ => rfl) (congrArg SegmentMap.entries hsm) he).1, ?_⟩
      rw [hsm]
      exact ⟨rfl, rfl, rfl⟩
    · obtain ⟨h1, hsm⟩ := flushFinish_dirty he hm hst hc
      refine ⟨h1, (lookup_of_mapEntry (f := flushedDirty) (fun _ => rfl) (congrArg SegmentMap.entries hsm) he).1, ?_⟩
      rw [hsm]
      exact ⟨rfl, rfl, rfl⟩

/-! ### The victim scan (R26) -/

theorem coldestEntry_none {s : State} {es : List Entry} : coldestEntry s es = none ↔ es = [] := by
  cases es with
  | nil => simp [coldestEntry]
  | cons e es =>
    unfold coldestEntry
    split
    · simp
    · split <;> simp

/-- The entry chosen is colder than those before it and no hotter than those after it. -/
theorem coldestEntry_some {s : State} {es : List Entry} {d : Entry} (h : coldestEntry s es = some d) :
    ∃ before after, es = before ++ d :: after ∧ (∀ x ∈ before, decayedHeat d.heat s < decayedHeat x.heat s)
      ∧ ∀ x ∈ after, decayedHeat d.heat s ≤ decayedHeat x.heat s := by
  induction es generalizing d with
  | nil => cases h
  | cons e es ih =>
    unfold coldestEntry at h
    split at h
    · rename_i hn
      cases h
      exact ⟨[], es, rfl, fun x hx => absurd hx List.not_mem_nil, fun x hx => by
        rw [coldestEntry_none.1 hn] at hx
        exact absurd hx List.not_mem_nil⟩
    · rename_i c hc
      obtain ⟨before, after, hes, hb, ha⟩ := ih hc
      split at h
      · rename_i hlt
        cases h
        refine ⟨e :: before, after, by rw [hes]; rfl, fun x hx => ?_, ha⟩
        rcases List.mem_cons.1 hx with rfl | hx
        · exact hlt
        · exact hb x hx
      · rename_i hge
        cases h
        refine ⟨[], es, rfl, fun x hx => absurd hx List.not_mem_nil, fun x hx => ?_⟩
        have hcold : decayedHeat c.heat s ≤ decayedHeat x.heat s := by
          rw [hes, List.mem_append, List.mem_cons] at hx
          rcases hx with hx | rfl | hx
          · exact (hb x hx).le
          · exact le_rfl
          · exact ha x hx
        exact (Nat.le_of_not_lt hge).trans hcold

namespace Eviction

/-- Settles O44. -/
theorem victimScan : Obligations.VictimScan := by
  intro s seen heat
  have hseen : scanned s = seen := by
    unfold scanned
    refine congrArg (List.take _) (List.filter_congr fun e _ => ?_)
    simp [evictable, pinned, beq_eq_decide]
  refine ⟨?_, fun g hd h => ?_⟩
  · unfold Machine.victimScan
    rw [Option.map_eq_none_iff, coldestEntry_none, hseen]
  · obtain ⟨e, he, heq⟩ := Option.map_eq_some_iff.1 h
    obtain ⟨before, after, hes, hb, ha⟩ := coldestEntry_some he
    cases heq
    exact ⟨before, e, after, hseen ▸ hes, rfl, rfl, hb, ha⟩

end Eviction

end Sys2Proof.Machine

/-! ## Dispatch (R138 to R141) -/

namespace Sys2Proof.Machine

/-! ### The id of a dispatch -/

/-- The id found is held by no outstanding order, or every id tried before it was held. -/
theorem freeId_cases (fuel : Nat) (n : Byte) (ds : List Dispatched) :
    (∀ d ∈ ds, d.id ≠ freeId fuel n ds)
      ∨ (freeId fuel n ds = n + BitVec.ofNat 8 fuel ∧ ∀ k < fuel, n + BitVec.ofNat 8 k ∈ ds.map Dispatched.id) := by
  have hstep : ∀ (n : Byte) (k : Nat), n + 1 + BitVec.ofNat 8 k = n + BitVec.ofNat 8 (k + 1) := fun n k => by
    rw [BitVec.ofNat_add, BitVec.add_assoc, BitVec.add_comm 1]
    rfl
  induction fuel generalizing n with
  | zero => exact .inr ⟨(BitVec.add_zero n).symm, fun k hk => absurd hk (Nat.not_lt_zero k)⟩
  | succ fuel ih =>
    unfold freeId
    split
    · rename_i hany
      obtain ⟨d0, hd0, hid⟩ := List.any_eq_true.1 hany
      refine (ih (n + 1)).imp id fun ⟨he, h⟩ => ⟨he.trans (hstep n fuel), fun k hk => ?_⟩
      cases k with
      | zero => exact List.mem_map.2 ⟨d0, hd0, (beq_iff_eq.1 hid).trans (BitVec.add_zero n).symm⟩
      | succ k => exact hstep n k ▸ h k (Nat.lt_of_succ_lt_succ hk)
    · rename_i hany
      exact .inl fun d hd he => hany (List.any_eq_true.2 ⟨d, hd, beq_iff_eq.2 he⟩)

/-- No outstanding order holds the id of the next dispatch. -/
theorem nextId_fresh {q : Scheduler} (h : q.outstanding.length < 255) : ∀ d ∈ q.outstanding, d.id ≠ nextId q := by
  rcases freeId_cases q.outstanding.length (q.lastId + 1) q.outstanding with hfree | ⟨heq, hheld⟩
  · exact hfree
  intro d hd hid
  let ids := (List.range (q.outstanding.length + 1)).map fun k => q.lastId + 1 + BitVec.ofNat 8 k
  have hnodup : ids.Nodup := by
    refine List.Nodup.map_on (fun a ha b hb hab => ?_) List.nodup_range
    have ha := List.mem_range.1 ha
    have hb := List.mem_range.1 hb
    have hab := congrArg BitVec.toNat (add_left_cancel hab)
    rwa [BitVec.toNat_ofNat, BitVec.toNat_ofNat, Nat.mod_eq_of_lt (by omega), Nat.mod_eq_of_lt (by omega)] at hab
  have hsub : ids ⊆ q.outstanding.map Dispatched.id := by
    intro x hx
    obtain ⟨k, hk, rfl⟩ := List.mem_map.1 hx
    rcases Nat.lt_succ_iff_lt_or_eq.1 (List.mem_range.1 hk) with hk | rfl
    · exact hheld k hk
    · exact List.mem_map.2 ⟨d, hd, hid.trans heq⟩
  have hlen := (List.subperm_of_subset hnodup hsub).length_le
  simp only [ids, List.length_map, List.length_range] at hlen
  omega

/-! ### A dispatch from the Foreground queue -/

/-- A port's scheduler after a dispatch. -/
def afterDispatch (q : Scheduler) (foreground background : List Order) (d : Dispatched) (starvation : Nat) : Scheduler :=
  { q with
    foreground := foreground
    background := background
    outstanding := q.outstanding ++ [d]
    lastId := d.id
    starvation := starvation }

theorem sched_takeLabel (p : Port) (d : Dispatched) (s : State) : sched p (takeLabel d s) = sched p s := by
  unfold takeLabel
  split
  · cases p <;> rfl
  · rfl

/-- A port with room whose arbiter chooses the Foreground dispatches its head. -/
theorem dispatchOne_foreground {p : Port} {s : State} (hm : mayDispatch p s = true) (hc : arbiterChoice p s = .foreground) :
    dispatchOne p s = dispatchForeground p s := by
  unfold dispatchOne dispatchLoop
  rw [hm, hc]
  rfl

theorem dispatchForeground_eq {p : Port} {s : State} {o : Order} {rest : List Order} (hf : (sched p s).foreground = o :: rest) :
    dispatchForeground p s = callPass (reportDispatch p (dispatchedOrder p o s) (sendOrder p (dispatchedOrder p o s)
      (setSched p (afterDispatch (sched p s) rest (sched p s).background (dispatchedOrder p o s) (starvationAfter p s))
        (takeLabel (dispatchedOrder p o s) s)))) := by
  unfold dispatchForeground
  rw [hf]
  dsimp only
  rw [sched_takeLabel]
  cases p <;> rfl

theorem mayDispatch_iff (p : Port) (s : State) :
    mayDispatch p s = true ↔ s.lu.marker ≠ .resetEngine ∧ (p = .platter → s.pm.state = .ready)
      ∧ (sched p s).outstanding.length < (if p = .flash then 8 else 4) := by
  have hr : inReset s = false ↔ s.lu.marker ≠ .resetEngine := beq_eq_false_iff_ne
  unfold mayDispatch
  rw [Bool.and_eq_true, decide_eq_true_eq]
  cases p with
  | flash =>
    show (!inReset s) = true ∧ s.fps.outstanding.length < 8 ↔ _
    rw [Bool.not_eq_true', hr]
    simp [sched]
  | platter =>
    show (s.pm.state == .ready && !inReset s) = true ∧ s.pps.outstanding.length < 4 ↔ _
    rw [Bool.and_eq_true, Bool.not_eq_true', hr, beq_iff_eq]
    simp [sched, and_assoc, and_left_comm]

/-- With the platter READY a report to the work view changes the monitor's view and nothing else. -/
theorem reportWork_ready {s : State} (h : s.pm.state = .ready) :
    ∃ m, Reworked s.pm m ∧ reportWork s = { s with pm := m } := by
  unfold reportWork
  split
  · exact ⟨s.pm, ⟨rfl, rfl, rfl, rfl, rfl, fun _ => rfl⟩, rfl⟩
  · dsimp only
    generalize hm : ({ s.pm with
        foregroundWaiting := !s.pps.foreground.isEmpty
        platterWork := !s.pps.foreground.isEmpty || !s.pps.background.isEmpty || !s.pps.outstanding.isEmpty
        movesExist := !(allMoves s).isEmpty
        urgentMove := (allMoves s).any fun m => m.kind == .urgent } : PlatterMonitor) = m
    have hready : m.state = .ready := by rw [← hm]; exact h
    have hre : Reworked s.pm m := by rw [← hm]; exact ⟨rfl, rfl, rfl, rfl, rfl, fun _ => rfl⟩
    have hspin : spinUpTest { s with pm := m } = { s with pm := m } := if_neg (by simp [hready, atRest])
    rw [hspin, ite_self]
    split
    · unfold quietTest
      split
      · exact ⟨m, hre, rfl⟩
      · exact ⟨{ m with quietTimer := 0, quietReached := false },
          ⟨hre.state, hre.watch, hre.excursion, hre.degraded, hre.armed, hre.spinUp⟩, rfl⟩
    · exact ⟨m, hre, rfl⟩

/-- What taking the write sequence for a label changes. -/
theorem takeLabel_eq (d : Dispatched) (s : State) : ∃ cu, takeLabel d s =
    { s with cu := cu, sm.writeSeq := if d.label.isSome then s.sm.writeSeq + 1 else s.sm.writeSeq } := by
  unfold takeLabel
  split
  · exact ⟨_, rfl⟩
  · exact ⟨s.cu, rfl⟩

theorem inFlight_withInFlight {s : State} {f : Nat} (h : f < s.sm.frames.length) :
    inFlight f { s with sm.frames := withInFlight f (· + 1) s.sm.frames } = inFlight f s + 1 := by
  unfold inFlight withInFlight
  dsimp only
  rw [List.getElem?_modify, List.getElem?_eq_getElem h]
  simp

/-- Settles O40. -/
theorem dispatchForegroundHead : Obligations.DispatchForegroundHead := by
  intro p s o rest hr hready hroom hfg hnone
  have hmay := (mayDispatch_iff p s).2 ⟨hr, hready, hroom⟩
  have hchoice : arbiterChoice p s = .foreground := by
    unfold arbiterChoice
    rw [hfg, hnone]
  have hids : ∀ x ∈ (sched p s).outstanding, x.id ≠ (dispatchedOrder p o s).id :=
    nextId_fresh (by cases p <;> simp at hroom <;> omega)
  have hstarve : starvationAfter p s = 0 := by
    unfold starvationAfter
    rw [hnone]
    rfl
  have hexec : exec (.orderDispatch p) s = .next (dispatchForeground p s) :=
    congrArg Host.Outcome.next (dispatchOne_foreground hmay hchoice)
  refine ⟨dispatchForeground p s, dispatchedOrder p o s, hexec, ?_⟩
  rw [dispatchForeground_eq hfg, hstarve]
  obtain ⟨cu, htake⟩ := takeLabel_eq (dispatchedOrder p o s) s
  rw [htake]
  generalize hd : dispatchedOrder p o s = d at *
  have hdo : d.order = o := by rw [← hd]; rfl
  have hdt : d.time = s.timebase := by rw [← hd]; rfl
  have hdl : d.label = orderLabel o s := by rw [← hd]; rfl
  rw [hdl]
  cases p with
  | flash =>
    cases ha : orderFrame d.order with
    | none =>
      have hrep : ∀ u, reportDispatch .flash d u = u := fun u => by
        unfold reportDispatch
        dsimp only
        rw [ha]
      rw [hrep]
      refine ⟨rfl, hdo, hdt, rfl, hids, rfl, rfl, rfl, rfl, rfl, rfl, rfl, rfl, fun _ => ⟨rfl, rfl, rfl, fun f hf _ => ?_⟩, nofun, rfl, rfl,
        rfl, rfl⟩
      rw [hdo, orderFrame, hf] at ha
      cases ha
    | some f =>
      have hrep : ∀ u, reportDispatch .flash d u = frameDispatched f u := fun u => by
        unfold reportDispatch
        dsimp only
        rw [ha]
      rw [hrep]
      refine ⟨rfl, hdo, hdt, rfl, hids, rfl, rfl, rfl, rfl, rfl, rfl, rfl, rfl, fun _ => ⟨rfl, rfl, rfl, fun g hg hlt => ?_⟩, nofun, rfl, rfl,
        rfl, rfl⟩
      rw [hdo, orderFrame, hg] at ha
      cases ha
      exact inFlight_withInFlight hlt
  | platter =>
    have hrep : ∀ u, reportDispatch .platter d u = reportWork (watchDispatch d.id u) := fun _ => rfl
    rw [hrep]
    obtain ⟨m, hm, heq⟩ := reportWork_ready (s := watchDispatch d.id (sendOrder .platter d (setSched .platter
      (afterDispatch (sched .platter s) rest (sched .platter s).background d 0)
      { s with cu := cu, sm.writeSeq := if (orderLabel o s).isSome then s.sm.writeSeq + 1 else s.sm.writeSeq })))
      (hready rfl)
    rw [heq]
    exact ⟨rfl, hdo, hdt, rfl, hids, rfl, rfl, rfl, rfl, rfl, rfl, rfl, rfl, nofun, fun _ => ⟨rfl, rfl, hm.watch, hm.armed⟩, rfl, rfl,
      rfl, rfl⟩

end Sys2Proof.Machine

/-! ## The arbiter of a port (R139, R140) -/

namespace Sys2Proof.Machine

theorem orderEligible_iff (p : Port) (o : Order) (s : State) : orderEligible p o s = true ↔
    (∀ n c, o.origin = .chunk n c → ∃ l, o.level = some l ∧ (sched p s).level < l)
      ∧ ∀ f, o.origin = .trim f → inFlight f s = 0 := by
  unfold orderEligible
  cases o.origin with
  | chunk n c =>
    dsimp only
    rw [Option.any_eq_true]
    refine ⟨fun ⟨l, hl, hlt⟩ => ⟨fun _ _ _ => ⟨l, hl, of_decide_eq_true hlt⟩, nofun⟩, fun h => ?_⟩
    obtain ⟨l, hl, hlt⟩ := h.1 n c rfl
    exact ⟨l, hl, decide_eq_true hlt⟩
  | trim f =>
    refine ⟨fun h => ⟨nofun, fun g hg => ?_⟩, fun h => beq_iff_eq.2 (h.2 f rfl)⟩
    cases hg
    exact beq_iff_eq.1 h
  | piece tag useNo segment i => exact ⟨fun _ => ⟨nofun, nofun⟩, fun _ => rfl⟩
  | labelUpdate f g => exact ⟨fun _ => ⟨nofun, nofun⟩, fun _ => rfl⟩
  | labelRead f => exact ⟨fun _ => ⟨nofun, nofun⟩, fun _ => rfl⟩
  | checkpoint n => exact ⟨fun _ => ⟨nofun, nofun⟩, fun _ => rfl⟩

theorem oldestEligible_iff (p : Port) (s : State) (i : Nat) : oldestEligible p s = some i ↔
    (∃ o, (sched p s).background[i]? = some o ∧ orderEligible p o s = true)
      ∧ ∀ (j : Nat) (o : Order), j < i → (sched p s).background[j]? = some o → orderEligible p o s = false := by
  unfold oldestEligible
  rw [List.findIdx?_eq_some_iff_getElem]
  constructor
  · rintro ⟨hlt, hi, hbefore⟩
    refine ⟨⟨_, List.getElem?_eq_getElem hlt, hi⟩, fun j o hj ho => ?_⟩
    obtain ⟨hjl, rfl⟩ := List.getElem?_eq_some_iff.1 ho
    exact Bool.eq_false_of_not_eq_true (hbefore j hj)
  · rintro ⟨⟨o, ho, hel⟩, hbefore⟩
    obtain ⟨hlt, rfl⟩ := List.getElem?_eq_some_iff.1 ho
    refine ⟨hlt, hel, fun j hj => ?_⟩
    rw [hbefore j _ hj (List.getElem?_eq_getElem (hj.trans hlt))]
    exact Bool.false_ne_true

/-- The orders outstanding on the Platter Port and its starvation count stay through the operations of the other units. -/
theorem platterCount_core (ds : List Dispatched) (n : Nat) :
    Core fun s => s.pps.outstanding = ds ∧ s.pps.starvation = n where
  touch := fun _ h => h
  bump := fun k _ h => by rw [bump_pps]; exact h
  occur := fun k a _ _ h => occur_keeps (P := fun s => s.pps.outstanding = ds ∧ s.pps.starvation = n)
    (fun k _ h => by rw [bump_pps]; exact h) (fun _ h => h) k a h
  monitor := fun _ _ h => h
  tracker := fun _ _ h => h
  held := fun _ h => h
  operation := fun _ _ h => h
  flash := fun _ _ h => h
  platter := fun {s} q hq h => ⟨hq.outstanding.trans h.1, hq.starvation.trans h.2⟩
  reissued := fun _ _ _ _ h => h
  moves := fun _ h => h
  map := fun _ h => h
  takeCandidate := fun g h => by
    unfold takeCandidate
    split
    · exact h
    · exact h

/-- A chunk order dispatched from the Platter Background queue. -/
theorem dispatchBackground_platter {s : State} {i : Nat} {b : Order} (hb : s.pps.background[i]? = some b) :
    (dispatchBackground .platter i s).pps.outstanding = s.pps.outstanding ++ [dispatchedOrder .platter b s]
      ∧ (dispatchBackground .platter i s).pps.starvation = 0 := by
  have hb : (sched .platter s).background[i]? = some b := hb
  unfold dispatchBackground
  rw [hb]
  dsimp only
  rw [sched_takeLabel]
  have hcore := platterCount_core (s.pps.outstanding ++ [dispatchedOrder .platter b s]) 0
  refine hcore.mapped.engineEvent ?_
  show _ ∧ _
  unfold roomAfter reportFlushStart
  dsimp only
  have hbase := hcore.reportWork (s := watchDispatch (dispatchedOrder .platter b s).id (sendOrder .platter (dispatchedOrder .platter b s)
    (joinOutstanding .platter (dispatchedOrder .platter b s) 0 (setSched .platter
      { sched .platter s with background := (sched .platter s).background.eraseIdx i }
      (takeLabel (dispatchedOrder .platter b s) s))))) ⟨rfl, rfl⟩
  split
  · exact hcore.mapped.flushStarts _ hbase
  · exact hbase

/-- Settles O41. -/
theorem dispatchArbitration : Obligations.DispatchArbitration := by
  refine ⟨orderEligible_iff, oldestEligible_iff, ?_⟩
  intro s o b rest i n c number hr hready hroom hfg hold hb horigin hn
  have hmay : mayDispatch .platter s = true := (mayDispatch_iff .platter s).2 ⟨hr, fun _ => hready, hroom⟩
  have hfg : (sched .platter s).foreground = o :: rest := hfg
  by_cases h16 : n = 16
  · have hchoice : arbiterChoice .platter s = .background i := by
      unfold arbiterChoice
      rw [hfg, hold]
      exact if_pos (hn.trans h16)
    have hkeep : ((sched .platter s).background[i]?.any fun o => droppedAtDispatch o s) = false := by
      show (s.pps.background[i]?.any fun o => droppedAtDispatch o s) = false
      rw [hb]
      simp [droppedAtDispatch, horigin]
    have hexec : dispatchOne .platter s = dispatchBackground .platter i s := by
      unfold dispatchOne dispatchLoop
      rw [hmay, hchoice]
      dsimp only
      rw [hkeep]
      rfl
    obtain ⟨hout, hstarve⟩ := dispatchBackground_platter hb
    refine ⟨dispatchBackground .platter i s, dispatchedOrder .platter b s, congrArg Host.Outcome.next hexec, hout,
      congrArg CalmPart.completions (dispatchBackground_calm .platter i s), fun _ => ⟨rfl, hstarve⟩, fun h => absurd h16 h⟩
  · have hchoice : arbiterChoice .platter s = .foreground := by
      unfold arbiterChoice
      rw [hfg, hold]
      exact if_neg fun h => h16 (hn.symm.trans h)
    have hstarve : starvationAfter .platter s = n + 1 := by
      unfold starvationAfter
      rw [hold]
      exact congrArg (· + 1) hn
    have hexec : exec (.orderDispatch .platter) s = .next (dispatchForeground .platter s) :=
      congrArg Host.Outcome.next (dispatchOne_foreground hmay hchoice)
    have hcalm := dispatchForeground_calm .platter s
    have hpps : (dispatchForeground .platter s).pps
        = afterDispatch s.pps rest s.pps.background (dispatchedOrder .platter o s) (n + 1) := by
      rw [dispatchForeground_eq hfg, hstarve]
      have hrep : ∀ d u, reportDispatch .platter d u = reportWork (watchDispatch d.id u) := fun _ _ => rfl
      rw [hrep]
      exact congrArg WorkPart.pps (reportWork_work _)
    refine ⟨dispatchForeground .platter s, dispatchedOrder .platter o s, hexec, by rw [hpps]; rfl,
      congrArg CalmPart.completions hcalm, fun h => absurd h h16, fun _ => ?_⟩
    rw [hpps]
    exact ⟨rfl, rfl, rfl, rfl⟩

end Sys2Proof.Machine

/-! ## The results of the Platter Port: the watch list, the latency window and Degraded -/

namespace Sys2Proof.Machine

/-! ### Predicates that no result's origin changes -/

section
variable {P : State → Prop} (hP : Core P)
include hP

theorem askTrims_of_core (fs : List Nat) {s : State} (h : P s) : P (askTrims fs s) := by
  unfold askTrims
  induction fs generalizing s with
  | nil => exact h
  | cons f fs ih => exact ih (hP.askTrim f h)

theorem finishRebuild_of_core (same : ∀ {s t}, P s → t.stats = s.stats → watchPart t = watchPart s → P t) {s : State}
    (p : RebuildProgress) (h : P s) : P (finishRebuild p s) := by
  have h1 : P (touch 0 (loadMap (assembledMap p s) (rebuiltSeq p s) s)) :=
    hP.touch 0 (askTrims_of_core hP _ (same h (by rfl) (by rfl)))
  unfold finishRebuild
  dsimp only
  generalize touch 0 (loadMap (assembledMap p s) (rebuiltSeq p s) s) = u at h1 ⊢
  have hkept := reconcile_kept u
  have hct : (reconcile u).ct = u.ct := congrArg (fun p => p.1.2.2.2.2.2.2.2) hkept
  have hlu : (reconcile u).lu = u.lu := congrArg (fun p => p.1.1) hkept
  have hpm : (reconcile u).pm = u.pm := congrArg (fun p => p.1.2.2.2.2.2.2.1) hkept
  have h2 : P (reconcile u) := by
    refine same h1 (congrArg (fun p => p.2.2.2.2.2) hkept) ?_
    unfold watchPart
    rw [hct, hlu, hpm]
  exact same h2 rfl rfl

theorem labelResult_of_core (same : ∀ {s t}, P s → t.stats = s.stats → watchPart t = watchPart s → P t) {s : State} (f : Nat)
    (ok : Bool) (l : FrameLabel) (h : P s) : P (labelResult f ok l s) := by
  unfold labelResult
  split
  · rename_i p _
    have h1 : P (classFrame f ok l { p with returned := p.returned + 1 } s).2 := by
      unfold classFrame classLabel
      split
      · exact h
      · split
        · exact hP.bump _ (by decide) h
        · split
          · exact h
          · dsimp only
            split
            · exact h
            · exact same h rfl rfl
    dsimp only
    unfold rebuildTest
    split
    · exact finishRebuild_of_core hP same _ h1
    · exact same h1 rfl rfl
  all_goals exact h

/-- A predicate of the counters and the watch part that the shared operations keep is kept by every result's origin but a
Restore. -/
theorem resulting_of_core (same : ∀ {s t}, P s → t.stats = s.stats → watchPart t = watchPart s → P t) : Resulting P where
  toMapped := hP.mapped
  steady := fun h ht hw => same h (congrArg TablePart.stats ht) hw
  settle := fun _ _ h => same h rfl rfl
  absorbOk := hP.absorbOk
  absorbError := hP.absorbError
  readError := hP.readError
  frameReturned := hP.frameReturned
  trimResult := hP.trimResult
  labelResult := labelResult_of_core hP same

/-- A predicate of the watch part that the shared operations keep is kept by every result's origin. -/
theorem reloading_of_core (same : ∀ {s t}, P s → watchPart t = watchPart s → P t) : Reloading P where
  toResulting := resulting_of_core hP fun h _ hw => same h hw
  writeSeq := fun _ h => same h rfl
  init := fun c h => same h (by fin_cases c <;> rfl)
  reconcile := fun {s} h => by
    refine same h ?_
    unfold reconcile clampEntries clampCandidates discardMapped
    split <;> split <;> split <;> rfl
  load := fun {s t} c data e hl h => by
    have h1 : P { s with freeIndex := s.freeIndex + (loadedLength c - ((data.take e.length).drop 64).length) } := same h rfl
    unfold loadRecord at hl
    dsimp only at hl
    generalize { s with freeIndex := s.freeIndex + (loadedLength c - ((data.take e.length).drop 64).length) } = u at hl h1
    generalize bodyOf c ((data.take e.length).drop 64) s.freeIndex = body at hl
    unfold loadBody at hl
    split at hl
    · unfold loadC0 at hl
      split at hl
      · split at hl
        · cases hl
          exact askTrims_of_core hP _ (same h1 rfl)
        · cases hl
      · cases hl
    · unfold loadC1 at hl
      dsimp only at hl
      split at hl
      · cases hl
        exact same h1 rfl
      · cases hl
    · cases hl
      generalize Vector.ofFn _ = v
      exact same h1 rfl
    · cases hl
      unfold loadC3
      generalize loadParameters _ _ _ _ = v
      generalize Vector.ofFn _ = w
      exact same h1 rfl
    · cases hl
      generalize renumberRanks _ = v
      exact same h1 rfl
    · cases hl
      generalize Vector.ofFn _ = v
      exact same h1 rfl

end

/-! ### Notices of other kinds, and counters of other names -/

theorem noticeIndex_inj {j k : NoticeKind} (h : j.index = k.index) : j = k := by
  cases j <;> cases k <;> first | rfl | cases h

theorem post_occurrences_other {j k : NoticeKind} (h : j ≠ k) (s : State) :
    (post k s).lu.occurrences[j.index] = s.lu.occurrences[j.index] := by
  have hv : ¬ k.index.val = j.index.val := fun e => h (noticeIndex_inj (Fin.ext e.symm))
  have hclear : ∀ u : State, u.lu.occurrences = s.lu.occurrences →
      (clearCount k u).lu.occurrences[j.index] = s.lu.occurrences[j.index] := fun u hu => by
    rw [← hu]
    simp only [Fin.getElem_fin, clearCount]
    exact Vector.getElem_set_ne (h := hv) ..
  have hbump : ∀ (c : Counter) (u : State), (bump c u).lu.occurrences[j.index] = u.lu.occurrences[j.index] := fun c u =>
    congrArg (fun lu : LinkUnit => lu.occurrences[j.index]) (bump_lu c u)
  unfold post
  dsimp only
  split
  · exact hclear _ rfl
  · split
    · exact (hbump _ _).trans (hclear _ rfl)
    · split
      · rfl
      · exact hbump _ _

theorem occur_occurrences_other {j k : NoticeKind} (h : j ≠ k) (a : Nat) (s : State) :
    (occur k a s).lu.occurrences[j.index] = s.lu.occurrences[j.index] := by
  have hv : ¬ k.index.val = j.index.val := fun e => h (noticeIndex_inj (Fin.ext e.symm))
  have hset : ∀ o, (s.lu.occurrences.set k.index o)[j.index] = s.lu.occurrences[j.index] := fun o => by
    simp only [Fin.getElem_fin]
    exact Vector.getElem_set_ne (h := hv) ..
  unfold occur
  dsimp only
  split
  · rfl
  · split
    · rw [post_occurrences_other h]
      exact hset _
    · exact hset _

/-- The counters by their indices (R205). -/
def counterNames : List Counter :=
  [.readsFlash, .readsPlatter, .readsMixed, .absorbedWrites, .mediaErrors, .evictions, .retiredFrames, .candidateDrops,
    .admissionRefusals, .promotionsFinished, .promotionsAbandoned, .flushesFinished, .flushesMismatched, .flushesFailed,
    .queueDrops, .spills, .degradedEntries, .noticesSent .spinUpRequest, .noticesSent .platterQuiet,
    .noticesSent .platterDegraded, .noticesSent .platterRecovered, .noticesSent .dirtyHigh, .noticesSent .heatLimit,
    .noticesSent .moveSpill, .noticesSent .mediaFault, .noticesMerged, .postsDeferred, .commandsTaken, .descriptorsRefused,
    .commandsFailed, .transactionsRefused, .linkResets]

theorem counterNames_index (k : Counter) : counterNames[(counterIndex k).val]? = some k := by
  cases k with
  | noticesSent kind => cases kind <;> rfl
  | _ => rfl

theorem counterIndex_inj {j k : Counter} (h : counterIndex j = counterIndex k) : j = k := by
  have hjk := (counterNames_index j).symm.trans ((congrArg (fun i : Fin 32 => counterNames[i.val]?) h).trans
    (counterNames_index k))
  exact Option.some.inj hjk

theorem bump_stats_other {j k : Counter} (h : k ≠ j) (s : State) :
    (bump k s).stats[counterIndex j] = s.stats[counterIndex j] := by
  have hv : ¬ (counterIndex k).val = (counterIndex j).val := fun e => h (counterIndex_inj (Fin.ext e))
  unfold bump
  split
  · simp only [Fin.getElem_fin, touch_stats]
    exact Vector.getElem_set_ne (h := hv) ..
  · rfl

theorem bump_stats_same {k : Counter} {s t : State} (h : t.stats[counterIndex k] = s.stats[counterIndex k]) :
    (bump k t).stats[counterIndex k] = (bump k s).stats[counterIndex k] := by
  have hown : ∀ u : State, (bump k u).stats[counterIndex k]
      = if u.stats[counterIndex k] < Config.maxU32 then u.stats[counterIndex k] + 1 else u.stats[counterIndex k] := fun u => by
    unfold bump
    split
    · simp only [Fin.getElem_fin, touch_stats]
      exact Vector.getElem_set_self ..
    · rfl
  rw [hown, hown, h]

/-! ### The occurrences of a kind read the Link Unit, the parameters and the timebase alone -/

theorem post_occurrences_same (k : NoticeKind) {s t : State} (h : t.lu = s.lu) :
    (post k t).lu.occurrences = (post k s).lu.occurrences := by
  have hbump : ∀ (c : Counter) (u : State), (bump c u).lu.occurrences = u.lu.occurrences := fun c u =>
    congrArg LinkUnit.occurrences (bump_lu c u)
  unfold post noticeOf clearCount
  rw [h]
  dsimp only
  split
  · rfl
  · split
    · rw [hbump, hbump]
    · split
      · rw [h]
      · rw [hbump, hbump]

theorem occur_occurrences_same (k : NoticeKind) (a : Nat) {s t : State} (h : t.lu = s.lu) (hp : t.params = s.params)
    (ht : t.timebase = s.timebase) : (occur k a t).lu.occurrences = (occur k a s).lu.occurrences := by
  unfold occur inReset
  rw [h, hp, ht]
  dsimp only
  split
  · rw [h]
  · split
    · exact post_occurrences_same k rfl
    · rfl

theorem occur_occurrences_monitor (k : NoticeKind) (a : Nat) (m : PlatterMonitor) (s : State) :
    (occur k a { s with pm := m }).lu.occurrences = (occur k a s).lu.occurrences := occur_occurrences_same k a rfl rfl rfl

/-! ### The latency window (R153 to R156) -/

/-- The watch list, the latency window and what is counted of Degraded. -/
def degradation (s : State) :=
  ((s.pm.watch, s.pm.excursion, s.pm.degraded), s.lu.occurrences[NoticeKind.platterDegraded.index],
    s.lu.occurrences[NoticeKind.platterRecovered.index])

theorem degradation_of_watchPart {s t : State} (h : watchPart t = watchPart s) : degradation t = degradation s := by
  have hpm : (t.pm.watch, t.pm.excursion, t.pm.degraded) = (s.pm.watch, s.pm.excursion, s.pm.degraded) :=
    congrArg (fun p => (p.1, p.2.1, p.2.2.1)) h
  have hlu : t.lu.occurrences = s.lu.occurrences := congrArg (fun p => p.2.2.2.1) h
  unfold degradation
  rw [hpm, hlu]

theorem degradation_core {x} : Core fun s => degradation s = x where
  touch := fun _ h => h
  bump := fun k _ h => by
    refine Eq.trans ?_ h
    unfold degradation
    rw [bump_lu, bump_pm]
  occur := fun k a h1 h2 h => by
    refine Eq.trans ?_ h
    unfold degradation
    rw [occur_pm, occur_occurrences_other h1.symm, occur_occurrences_other h2.symm]
  monitor := fun {s} m hm h => by
    refine Eq.trans ?_ h
    show ((m.watch, m.excursion, m.degraded), _) = _
    rw [hm.watch, hm.excursion, hm.degraded]
    rfl
  tracker := fun _ _ h => h
  held := fun _ h => h
  operation := fun _ _ h => h
  flash := fun _ _ h => h
  platter := fun _ _ h => h
  reissued := fun _ _ _ _ h => h
  moves := fun _ h => h
  map := fun _ h => h
  takeCandidate := fun {s} g h => by
    refine Eq.trans ?_ h
    unfold takeCandidate
    split <;> rfl

theorem degradation_reloading {x} : Reloading fun s => degradation s = x :=
  reloading_of_core degradation_core fun h hw => (degradation_of_watchPart hw).trans h

theorem passDue_reloading : Reloading fun s => s.ct.passDue = true :=
  reloading_of_core passDue_core fun h hw => (congrArg (fun p => p.2.2.2.2) hw).trans h

theorem degradedEntries_core {x : Nat} : Core fun s => s.stats[counterIndex .degradedEntries] = x where
  touch := fun _ h => h
  bump := fun k hk h => (bump_stats_other hk _).trans h
  occur := fun {s} k a _ _ h => occur_keeps (P := fun s => s.stats[counterIndex .degradedEntries] = x)
    (fun k hk h => (bump_stats_other hk _).trans h) (fun _ h => h) k a h
  monitor := fun _ _ h => h
  tracker := fun _ _ h => h
  held := fun _ h => h
  operation := fun _ _ h => h
  flash := fun _ _ h => h
  platter := fun _ _ h => h
  reissued := fun _ _ _ _ h => h
  moves := fun _ h => h
  map := fun _ h => h
  takeCandidate := fun {s} g h => by
    unfold takeCandidate
    split
    · exact h
    · exact h

theorem degradedEntries_resulting {x : Nat} : Resulting fun s => s.stats[counterIndex .degradedEntries] = x :=
  resulting_of_core degradedEntries_core fun h hs _ => (congrArg (fun v => v[counterIndex .degradedEntries]) hs).trans h

theorem Resulting.handToOrigin_other {P : State → Prop} (hP : Resulting P) {d : Dispatched}
    (hd : ∀ n, d.order.origin ≠ .checkpoint n) (r : OrderResult) {s : State} (h : P s) : P (handToOrigin d r s) := by
  unfold handToOrigin
  split
  · exact hP.pieceResult _ _ _ _ _ _ h
  · exact hP.chunkResult _ _ _ _ h
  · exact hP.trimResult _ _ h
  · exact h
  · exact hP.labelResult _ _ _ h
  · rename_i n hn
    exact absurd hn (hd n)

/-! What a platter result reports of the latency window: the count that it leaves, and whether Degraded starts or ends. -/

section
variable (s : State) (id : Byte) (service : Nat)

def resultInterrupted : Bool := (s.pm.watch.find? fun w => w.id == id).any fun w => w.interrupted

def resultCount : Nat :=
  if resultInterrupted s id then s.pm.excursion else windowCount service s.params.latencyLimit s.pm.excursion

def degradedStarts : Prop :=
  resultInterrupted s id = false ∧ s.pm.degraded = false ∧ s.params.degradeThreshold ≤ resultCount s id service

def degradedEnds : Prop := resultInterrupted s id = false ∧ s.pm.degraded = true ∧ resultCount s id service = 0

/-- The Platter Monitor after a platter result, but for Degraded. -/
def reportedMonitor : PlatterMonitor :=
  { s.pm with watch := s.pm.watch.eraseP fun w => w.id == id, excursion := resultCount s id service }

variable {s id service}

theorem watchResult_starts (h : degradedStarts s id service) :
    watchResult id service s = callPass (bump .degradedEntries (occur .platterDegraded (resultCount s id service)
      { s with pm := { reportedMonitor s id service with degraded := true } })) := by
  obtain ⟨hi, hd, hn⟩ := h
  have hc : resultCount s id service = windowCount service s.params.latencyLimit s.pm.excursion := by simp [resultCount, hi]
  unfold watchResult degradeTest reportedMonitor
  dsimp only
  rw [hc] at hn ⊢
  rw [if_neg (by rw [show Option.any _ _ = _ from hi]; exact Bool.false_ne_true), if_pos (by simp [hd, hn])]

theorem watchResult_ends (h : degradedEnds s id service) :
    watchResult id service s = callPass (occur .platterRecovered (platterCode s.pm.state)
      { s with pm := { reportedMonitor s id service with degraded := false } }) := by
  obtain ⟨hi, hd, hn⟩ := h
  have hc : resultCount s id service = windowCount service s.params.latencyLimit s.pm.excursion := by simp [resultCount, hi]
  unfold watchResult degradeTest reportedMonitor
  dsimp only
  rw [hc] at hn ⊢
  rw [if_neg (by rw [show Option.any _ _ = _ from hi]; exact Bool.false_ne_true), if_neg (by simp [hd]), if_pos (by simp [hd, hn])]

theorem watchResult_neither (h1 : ¬ degradedStarts s id service) (h2 : ¬ degradedEnds s id service) :
    watchResult id service s = { s with pm := reportedMonitor s id service } := by
  unfold degradedStarts at h1
  unfold degradedEnds at h2
  unfold watchResult degradeTest reportedMonitor
  by_cases hi : resultInterrupted s id = true
  · have hc : resultCount s id service = s.pm.excursion := by simp [resultCount, hi]
    rw [hc]
    exact if_pos hi
  · rw [Bool.not_eq_true] at hi
    have hc : resultCount s id service = windowCount service s.params.latencyLimit s.pm.excursion := by
      simp [resultCount, hi]
    rw [hc] at h1 h2 ⊢
    dsimp only
    rw [if_neg (by rw [show Option.any _ _ = _ from hi]; exact Bool.false_ne_true)]
    rw [if_neg, if_neg]
    · simpa [hi] using h2
    · simpa [hi] using h1

theorem degradation_starts (h : degradedStarts s id service) : degradation (watchResult id service s)
    = (((s.pm.watch.eraseP fun w => w.id == id), resultCount s id service, true),
      (occur .platterDegraded (resultCount s id service) s).lu.occurrences[NoticeKind.platterDegraded.index],
      s.lu.occurrences[NoticeKind.platterRecovered.index]) := by
  rw [watchResult_starts h]
  unfold degradation
  rw [callPass_pm, callPass_lu, bump_pm, bump_lu, occur_pm,
    occur_occurrences_other (j := .platterRecovered) (k := .platterDegraded) (by decide)]
  exact congrArg (fun v : Vector Occurrence 8 => (((s.pm.watch.eraseP fun w => w.id == id), resultCount s id service, true),
    v[NoticeKind.platterDegraded.index], s.lu.occurrences[NoticeKind.platterRecovered.index]))
    (occur_occurrences_monitor _ _ _ s)

theorem degradation_ends (h : degradedEnds s id service) : degradation (watchResult id service s)
    = (((s.pm.watch.eraseP fun w => w.id == id), resultCount s id service, false),
      s.lu.occurrences[NoticeKind.platterDegraded.index],
      (occur .platterRecovered (platterCode s.pm.state) s).lu.occurrences[NoticeKind.platterRecovered.index]) := by
  rw [watchResult_ends h]
  unfold degradation
  rw [callPass_pm, callPass_lu, occur_pm,
    occur_occurrences_other (j := .platterDegraded) (k := .platterRecovered) (by decide)]
  exact congrArg (fun v : Vector Occurrence 8 => (((s.pm.watch.eraseP fun w => w.id == id), resultCount s id service, false),
    s.lu.occurrences[NoticeKind.platterDegraded.index], v[NoticeKind.platterRecovered.index]))
    (occur_occurrences_monitor _ _ _ s)

theorem degradation_neither (h1 : ¬ degradedStarts s id service) (h2 : ¬ degradedEnds s id service) :
    degradation (watchResult id service s) = (((s.pm.watch.eraseP fun w => w.id == id), resultCount s id service, s.pm.degraded),
      s.lu.occurrences[NoticeKind.platterDegraded.index], s.lu.occurrences[NoticeKind.platterRecovered.index]) := by
  rw [watchResult_neither h1 h2]
  rfl

theorem degradation_window : (degradation (watchResult id service s)).1.1 = (s.pm.watch.eraseP fun w => w.id == id)
    ∧ (degradation (watchResult id service s)).1.2.1 = resultCount s id service := by
  by_cases h1 : degradedStarts s id service
  · rw [degradation_starts h1]
    exact ⟨rfl, rfl⟩
  · by_cases h2 : degradedEnds s id service
    · rw [degradation_ends h2]
      exact ⟨rfl, rfl⟩
    · rw [degradation_neither h1 h2]
      exact ⟨rfl, rfl⟩

theorem degradedEntries_starts (h : degradedStarts s id service) :
    (watchResult id service s).stats[counterIndex .degradedEntries] = (bump .degradedEntries s).stats[counterIndex .degradedEntries] := by
  rw [watchResult_starts h]
  refine (bump_stats_same ?_ : _ = (bump .degradedEntries s).stats[_])
  exact occur_keeps (P := fun t => t.stats[counterIndex .degradedEntries] = s.stats[counterIndex .degradedEntries])
    (fun k hk h => (bump_stats_other hk _).trans h) (fun _ h => h) _ _ rfl

end

/-! ### A result taken -/

theorem takeResult_unknown {p : Port} {r : OrderResult} {s : State} (h : ∀ d ∈ (sched p s).outstanding, d.id ≠ r.id) :
    takeResult p r s = s := by
  have hnone : outstandingOf p r.id s = none := List.find?_eq_none.mpr fun d hd => by simpa using h d hd
  unfold takeResult
  rw [hnone]

theorem takeResult_reset {p : Port} {r : OrderResult} {s : State} (h : s.lu.marker = .resetEngine) :
    takeResult p r s = leaveOutstanding p r.id s := by
  have hr : inReset s = true := by simp [inReset, h]
  cases hd : outstandingOf p r.id s with
  | none =>
    rw [takeResult_unknown fun d hm => by simpa using List.find?_eq_none.mp hd d hm]
    have hf : (sched p s).outstanding.filter (fun d => d.id != r.id) = (sched p s).outstanding :=
      List.filter_eq_self.mpr fun d hm => by simpa using List.find?_eq_none.mp hd d hm
    unfold leaveOutstanding
    rw [hf]
    cases p <;> rfl
  | some d =>
    unfold takeResult
    rw [hd]
    exact if_pos hr

/-- A platter result of an outstanding order, outside a Reset Engine. -/
theorem takeResult_platter {r : OrderResult} {s : State} {d : Dispatched} (h : s.lu.marker ≠ .resetEngine)
    (hd : (s.pps.outstanding.find? fun x => x.id == r.id) = some d) :
    takeResult .platter r s = engineEvent (handToOrigin d r (reportWork
      (watchResult r.id (s.timebase - d.time).toNat (leaveOutstanding .platter r.id s)))) := by
  have hid : d.id = r.id := by simpa using List.find?_some hd
  have hr : ¬ inReset s = true := by simpa [inReset] using h
  have hout : outstandingOf .platter r.id s = some d := hd
  unfold takeResult
  rw [hout]
  dsimp only
  rw [if_neg hr]
  unfold reportResult
  rw [hid]
  rfl

/-- What a platter result leaves of the latency window (R153 to R156), whatever its order's origin. -/
theorem takeResult_window {r : OrderResult} {s : State} {d : Dispatched} (h : s.lu.marker ≠ .resetEngine)
    (hd : (s.pps.outstanding.find? fun x => x.id == r.id) = some d) :
    let w := watchResult r.id (s.timebase - d.time).toNat (leaveOutstanding .platter r.id s)
    degradation (takeResult .platter r s) = degradation w
      ∧ (w.ct.passDue = true → (takeResult .platter r s).ct.passDue = true)
      ∧ ((∀ n, d.order.origin ≠ .checkpoint n) → (takeResult .platter r s).stats[counterIndex .degradedEntries]
          = w.stats[counterIndex .degradedEntries]) := by
  intro w
  rw [takeResult_platter h hd]
  refine ⟨?_, fun hw => ?_, fun hc => ?_⟩
  · exact degradation_reloading.toMapped.engineEvent (degradation_reloading.handToOrigin _ _
      (degradation_reloading.toMapped.reportWork rfl))
  · exact passDue_reloading.toMapped.engineEvent (passDue_reloading.handToOrigin _ _
      (passDue_reloading.toMapped.reportWork hw))
  · exact degradedEntries_resulting.toMapped.engineEvent (degradedEntries_resulting.handToOrigin_other hc _
      (degradedEntries_resulting.toMapped.reportWork rfl))

end Sys2Proof.Machine

/-! ## The end of a command of one piece, and ORDER_RESULT -/

namespace Sys2Proof.Machine

/-! ### No FLUSH_CACHE is tracked -/

/-- No command of the Arrival List is a FLUSH_CACHE. -/
def NoFlushCache (s : State) : Prop := ∀ e ∈ s.ct.arrival, ∀ y, commandOf e s = some y → y.kind ≠ .flushCache

theorem NoFlushCache.of_ct {s t : State} (h : NoFlushCache s) (hs : t.ct.slots = s.ct.slots) (ha : t.ct.arrival = s.ct.arrival) :
    NoFlushCache t := by
  unfold NoFlushCache commandOf
  rw [hs, ha]
  exact h

theorem NoFlushCache.of_kinds {s t : State} (h : NoFlushCache s) (ha : ∀ e ∈ t.ct.arrival, e ∈ s.ct.arrival)
    (hk : ∀ e y, commandOf e t = some y → ∃ x, commandOf e s = some x ∧ y.kind = x.kind) : NoFlushCache t := by
  intro e he y hy
  obtain ⟨x, hx, hkind⟩ := hk e y hy
  exact hkind ▸ h e (ha e he) x hx

theorem NoFlushCache.modifyCommand {s : State} (h : NoFlushCache s) (tag : Fin 32) {f : Command → Command}
    (hf : ∀ x, (f x).kind = x.kind) : NoFlushCache (modifyCommand tag f s) :=
  h.of_kinds (fun _ he => he) fun e y hy => by
    by_cases ht : e = tag
    · subst ht
      rw [commandOf_modifyCommand] at hy
      obtain ⟨x, hx, rfl⟩ := Option.map_eq_some_iff.1 hy
      exact ⟨x, hx, hf x⟩
    · rw [commandOf_modifyCommand_other ht] at hy
      exact ⟨y, hy, rfl⟩

theorem NoFlushCache.releaseHolds {s : State} (h : NoFlushCache s) : NoFlushCache (releaseHolds s) := by
  unfold Machine.releaseHolds releaseWhere
  split
  · refine h.of_kinds (fun e he => ?_) fun e y hy => ?_
    · simpa using he
    · rw [commandOf_callPass, commandOf_mapPieces] at hy
      obtain ⟨x, hx, rfl⟩ := Option.map_eq_some_iff.1 hy
      exact ⟨x, hx, rfl⟩
  · exact h

theorem NoFlushCache.freeSlot {s : State} (h : NoFlushCache s) (tag : Fin 32) : NoFlushCache (freeSlot tag s) := by
  intro e he y hy
  obtain ⟨hin, hne⟩ := List.mem_filter.1 he
  have hslot := freeSlot_other (bne_iff_ne.1 hne) s
  exact h e hin y ((congrArg TagSlot.command hslot).symm.trans hy)

theorem testFlushCaches_none {s : State} (h : NoFlushCache s) : testFlushCaches s = s := by
  have := flushCacheSweep_others (ts := s.ct.arrival) (us := []) (seen := false) h
  rwa [List.append_nil] at this

/-! ### The end of a command of one piece -/

theorem releaseHolds_ports (s : State) : (releaseHolds s).fps = s.fps ∧ (releaseHolds s).pps = s.pps := by
  unfold releaseHolds releaseWhere
  split
  · simp
  · exact ⟨rfl, rfl⟩

theorem countPiece_kept (kind : CommandKind) (p : Piece) (s : State) :
    (countPiece kind p s).fps = s.fps ∧ (countPiece kind p s).pps = s.pps ∧ (countPiece kind p s).ct = s.ct := by
  unfold countPiece
  split
  · exact ⟨rfl, rfl, rfl⟩
  · split
    · split <;> simp
    · split <;> simp
    all_goals exact ⟨rfl, rfl, rfl⟩

/-- A piece that has ended is no piece that a hold's end releases. -/
theorem commandOf_releaseHolds {s : State} {tag : Fin 32} {c : Command} (h : commandOf tag s = some c)
    (hp : ∀ p ∈ c.pieces, p.state ≠ .held false) : commandOf tag (releaseHolds s) = some c := by
  unfold releaseHolds releaseWhere
  split
  · rw [commandOf_callPass, commandOf_mapPieces, h, Option.map_some]
    have hsame : c.pieces.map (fun p => if p.state == .held false && !overlapHeld tag c.kind p s then
        { p with state := .waiting (releasedReason s) } else p) = c.pieces :=
      (List.map_congr_left (g := id) fun p hm => by simp [hp p hm]).trans (List.map_id _)
    rw [hsame]
  · exact h

/-- A command whose one piece has ended completes, and its slot becomes FREE (R95). -/
theorem finishCommand_alone {tag : Fin 32} {c : Command} {p : Piece} {v : State} (hc : commandOf tag v = some c)
    (hheld : c.held = false) (hps : c.pieces = [p]) (hp : ended p = true) (hf : NoFlushCache v) :
    let t := finishCommand tag v
    let r := Completion.command tag (commandStatus c) (servedFrom c)
    calmPart t = calmPart (complete r (freeSlot tag v)) ∧ t.fps = v.fps ∧ t.pps = v.pps := by
  intro t r
  obtain ⟨w, hw⟩ : ∃ w, w = if commandStatus c = .mediaError then bump .commandsFailed (complete r (freeSlot tag v))
      else complete r (freeSlot tag v) := ⟨_, rfl⟩
  have hwcalm : calmPart w = calmPart (complete r (freeSlot tag v)) := by rw [hw]; split <;> simp
  have hwports : w.fps = v.fps ∧ w.pps = v.pps := by rw [hw]; split <;> simp
  have hwf : NoFlushCache w := by
    have h1 : NoFlushCache (complete r (freeSlot tag v)) := NoFlushCache.of_ct (hf.freeSlot tag) rfl rfl
    rw [hw]
    split
    · exact h1.of_ct (by rw [bump_ct]) (by rw [bump_ct])
    · exact h1
  have htw : t = releaseHolds w := by
    show finishCommand tag v = _
    unfold finishCommand
    rw [hc]
    dsimp only
    rw [if_pos (by simp [hheld, hps, hp]), ← hw, testFlushCaches_none hwf]
  refine ⟨?_, ?_, ?_⟩
  · rw [htw, releaseHolds_calm, hwcalm]
  · rw [htw, (releaseHolds_ports _).1, hwports.1]
  · rw [htw, (releaseHolds_ports _).2, hwports.2]

/-- A piece as it ends (R94). -/
def endedPiece (p : Piece) : Piece := { p with state := if p.error then .failed else .done }

theorem endedPiece_ended (p : Piece) : ended (endedPiece p) = true := by
  unfold ended endedPiece
  cases p.error <;> rfl

theorem commandStatus_ended (c : Command) (p : Piece) :
    commandStatus { c with pieces := [endedPiece p] } = if p.error then .mediaError else .good := by
  unfold commandStatus
  cases he : p.error <;> simp [endedPiece, he]

/-- The end of the one piece of a command (R94, R95): the command completes and its slot becomes FREE. -/
theorem endPiece_alone {tag : Fin 32} {c : Command} {p : Piece} {u : State} (hcmd : commandOf tag u = some c)
    (hheld : c.held = false) (hps : c.pieces = [p]) (hp : partsEnded p = true) (hn : ended p = false) (hf : NoFlushCache u) :
    let t := endPiece tag p.segment u
    let r := Completion.command tag (if p.error then .mediaError else .good) (servedFrom c)
    ∃ v, calmPart v = calmPart u ∧ calmPart t = calmPart (complete r (freeSlot tag v)) ∧ t.fps = u.fps ∧ t.pps = u.pps := by
  intro t r
  have hpiece : pieceOf tag p.segment u = some p := by simp [pieceOf, hcmd, hps]
  obtain ⟨m, hm⟩ : ∃ m, m = modifyPiece tag p.segment endedPiece u := ⟨_, rfl⟩
  obtain ⟨v, hv⟩ : ∃ v, v = releaseHolds (countPiece c.kind p m) := ⟨_, rfl⟩
  have ht : t = finishCommand tag v := by
    rw [hv, hm]
    show endPiece tag p.segment u = _
    unfold endPiece
    rw [hcmd, hpiece]
    exact if_pos (by simp [hp, hn])
  obtain ⟨hcf, hcp, hcc⟩ := countPiece_kept c.kind p m
  have hvcalm : calmPart v = calmPart u := by rw [hv, hm]; simp
  have hvports : v.fps = u.fps ∧ v.pps = u.pps := by
    rw [hv, (releaseHolds_ports _).1, (releaseHolds_ports _).2, hcf, hcp, hm]
    simp [modifyPiece]
  have hvf : NoFlushCache v := by
    rw [hv]
    refine NoFlushCache.releaseHolds (NoFlushCache.of_ct (s := m) ?_ (by rw [hcc]) (by rw [hcc]))
    rw [hm]
    exact hf.modifyCommand tag fun x => rfl
  have hvcmd : commandOf tag v = some { c with pieces := [endedPiece p] } := by
    rw [hv]
    refine commandOf_releaseHolds ?_ ?_
    · unfold commandOf
      rw [hcc, hm]
      unfold modifyPiece
      rw [show (modifyCommand tag _ u).ct.slots[tag].command = _ from commandOf_modifyCommand tag _ u, hcmd]
      simp [mapPiece, hps]
    · intro q hq
      obtain rfl : q = endedPiece p := by simpa using hq
      unfold endedPiece
      cases p.error <;> exact nofun
  have hserved : servedFrom { c with pieces := [endedPiece p] } = servedFrom c := by
    unfold servedFrom
    rw [hps]
    rfl
  obtain ⟨h1, h2, h3⟩ := finishCommand_alone hvcmd hheld rfl (endedPiece_ended p) hvf
  rw [commandStatus_ended, hserved] at h1
  exact ⟨v, hvcalm, ht ▸ h1, ht ▸ h2.trans hvports.1, ht ▸ h3.trans hvports.2⟩

/-! ### ORDER_RESULT -/

theorem useNo_of_tags {v w : Vector TagSlot 32} (h : tagsOf v = tagsOf w) (tag : Fin 32) : v[tag].useNo = w[tag].useNo := by
  have h1 : (tagsOf v)[tag.val]? = (tagsOf w)[tag.val]? := by rw [h]
  simp only [tagsOf, List.getElem?_map, Vector.getElem?_toList, Vector.getElem?_eq_getElem tag.isLt, Option.map_some,
    Option.some.injEq, Prod.mk.injEq] at h1
  exact h1.1

theorem watchResult_kept (id : Byte) (service : Nat) (s : State) :
    (watchResult id service s).fps = s.fps ∧ (watchResult id service s).pps = s.pps
      ∧ (watchResult id service s).ct.slots = s.ct.slots := by
  have hoccur : ∀ (k : NoticeKind) (a : Nat) (u : State), ((occur k a u).fps, (occur k a u).pps) = (u.fps, u.pps) :=
    fun k a u => occur_keeps (P := fun t => (t.fps, t.pps) = (u.fps, u.pps)) (fun k _ h => by simpa using h) (fun _ h => h) k a rfl
  by_cases h1 : degradedStarts s id service
  · rw [watchResult_starts h1]
    have h := hoccur .platterDegraded (resultCount s id service)
      { s with pm := { reportedMonitor s id service with degraded := true } }
    simp only [Prod.mk.injEq] at h
    rw [callPass_fps, callPass_pps, callPass_ct_slots, bump_fps, bump_pps, bump_ct, occur_ct, h.1, h.2]
    exact ⟨rfl, rfl, rfl⟩
  · by_cases h2 : degradedEnds s id service
    · rw [watchResult_ends h2]
      have h := hoccur .platterRecovered (platterCode s.pm.state)
        { s with pm := { reportedMonitor s id service with degraded := false } }
      simp only [Prod.mk.injEq] at h
      rw [callPass_fps, callPass_pps, callPass_ct_slots, occur_ct, h.1, h.2]
      exact ⟨rfl, rfl, rfl⟩
    · rw [watchResult_neither h1 h2]
      exact ⟨rfl, rfl, rfl⟩

/-- A part's end on a command of one piece of one part (R93 to R95). -/
theorem partResult_alone {tag : Fin 32} {useNo : BitVec 16} {c : Command} {p : Piece} {q : OrderPart} {u : State} (ok : Bool)
    (hs : u.ct.slots[tag] = ⟨useNo, some c⟩) (hheld : c.held = false) (hps : c.pieces = [p]) (hstate : p.state = .issued)
    (hparts : p.parts = [q]) (hflash : p.onFlash = false) (hplatter : p.onPlatter = false) (herror : p.error = false)
    (hf : NoFlushCache u) :
    let t := partResult tag useNo p.segment 0 .platter ok u
    let r := if ok then Completion.command tag .good .platter else .command tag .mediaError .none
    ∃ v, calmPart v = calmPart u ∧ calmPart t = calmPart (complete r (freeSlot tag v)) ∧ t.fps = u.fps ∧ t.pps = u.pps := by
  intro t r
  have hcmd : commandOf tag u = some c := congrArg TagSlot.command hs
  have htracked : tracked tag useNo u = true := by
    unfold tracked
    rw [hcmd, show u.ct.slots[tag].useNo = useNo from congrArg TagSlot.useNo hs]
    simp
  have hmodify : ∀ g : Piece → Piece, (g p).segment = p.segment → partsEnded (g p) = true → ended (g p) = false →
      Completion.command tag (if (g p).error then .mediaError else .good) (servedFrom { c with pieces := [g p] }) = r →
      ∃ v, calmPart v = calmPart u
        ∧ calmPart (endPiece tag p.segment (modifyPiece tag p.segment g u)) = calmPart (complete r (freeSlot tag v))
        ∧ (endPiece tag p.segment (modifyPiece tag p.segment g u)).fps = u.fps
        ∧ (endPiece tag p.segment (modifyPiece tag p.segment g u)).pps = u.pps := by
    intro g hg hpe hne hr
    have hc' : commandOf tag (modifyPiece tag p.segment g u) = some { c with pieces := [g p] } := by
      unfold modifyPiece
      rw [commandOf_modifyCommand, hcmd]
      simp [mapPiece, hps]
    obtain ⟨v, h1, h2, h3, h4⟩ := endPiece_alone hc' hheld rfl hpe hne (hf.modifyCommand tag fun x => rfl)
    rw [hg] at h2 h3 h4
    rw [hr] at h2
    exact ⟨v, h1.trans (modifyPiece_calm _ _ _ _), h2, h3.trans (modifyCommand_fps _ _ _), h4.trans (modifyCommand_pps _ _ _)⟩
  cases ok with
  | true =>
    have ht : t = partOk tag p.segment 0 .platter u := by
      show partResult _ _ _ _ _ _ _ = _
      unfold partResult
      rw [if_pos htracked]
      rfl
    rw [ht]
    exact hmodify (fun p => { p with
      parts := p.parts.modify 0 fun q => { q with state := .endedOk }
      onFlash := p.onFlash || Port.platter == .flash
      onPlatter := p.onPlatter || Port.platter == .platter }) rfl (by simp [partsEnded, hparts]) (by simp [ended, hstate])
      (by simp [servedFrom, herror, hflash, r]; rfl)
  | false =>
    have ht : t = partError tag p.segment 0 u := by
      show partResult _ _ _ _ _ _ _ = _
      unfold partResult
      rw [if_pos htracked]
      rfl
    rw [ht]
    exact hmodify (fun p => { p with
      parts := p.parts.modify 0 fun q => { q with state := .endedError }
      error := true }) rfl (by simp [partsEnded, hparts]) (by simp [ended, hstate])
      (by simp [servedFrom, hflash, hplatter, r])

/-- What the result of the one platter order of a one-piece command leaves (R93 to R95). -/
theorem takeResult_alone {r : OrderResult} {s : State} {d : Dispatched} {tag : Fin 32} {useNo : BitVec 16} {c : Command}
    {p : Piece} {q : OrderPart} (hm : s.lu.marker ≠ .resetEngine)
    (hd : (s.pps.outstanding.find? fun x => x.id == r.id) = some d) (ho : d.order.origin = .piece tag useNo p.segment 0)
    (ha : d.order.address = .platter p.segment) (hs : s.ct.slots[tag] = ⟨useNo, some c⟩) (hheld : c.held = false)
    (hps : c.pieces = [p]) (hstate : p.state = .issued) (hparts : p.parts = [q]) (hflash : p.onFlash = false)
    (hplatter : p.onPlatter = false) (herror : p.error = false) (hf : NoFlushCache s) :
    let t := takeResult .platter r s
    let a := if outcomeOk r then Completion.command tag .good .platter else .command tag .mediaError .none
    ∃ v, calmPart v = calmPart s ∧ calmPart t = calmPart (complete a (freeSlot tag v))
      ∧ t.pps.outstanding = s.pps.outstanding.filter (fun x => x.id != r.id) ∧ t.fps.outstanding = s.fps.outstanding := by
  intro t a
  obtain ⟨l, hl⟩ : ∃ l, l = leaveOutstanding .platter r.id s := ⟨_, rfl⟩
  obtain ⟨w, hw⟩ : ∃ w, w = watchResult r.id (s.timebase - d.time).toNat l := ⟨_, rfl⟩
  obtain ⟨u, hu⟩ : ∃ u, u = if outcomeOk r then reportWork w else bump .mediaErrors (reportWork w) := ⟨_, rfl⟩
  have hlcalm : calmPart l = calmPart s := by rw [hl]; rfl
  obtain ⟨hwf, hwp, hws⟩ := watchResult_kept r.id (s.timebase - d.time).toNat l
  rw [← hw] at hwf hwp hws
  have hwcalm : calmPart w = calmPart s := by rw [hw, watchResult_calm, hlcalm]
  have hrpart : enginePart (reportWork w) = enginePart w := (enginePart_core (· = enginePart w)).reportWork rfl
  have hupart : enginePart u = enginePart w := by
    rw [hu]
    split
    · exact hrpart
    · exact (enginePart_bump _ _).trans hrpart
  have huct : u.ct = w.ct := by
    rw [hu]
    split
    · exact reportWork_ct w
    · rw [bump_ct, reportWork_ct]
  have hucalm : calmPart u = calmPart s := (congrArg EnginePart.calm hupart).trans hwcalm
  have hslots : u.ct.slots = s.ct.slots := by rw [huct, hws, hl]; rfl
  have harrival : u.ct.arrival = s.ct.arrival := congrArg CalmPart.arrival hucalm
  have ht : t = engineEvent (partResult tag useNo p.segment 0 .platter (outcomeOk r) u) := by
    show takeResult .platter r s = _
    rw [takeResult_platter hm hd, ← hl, ← hw, hu]
    unfold handToOrigin
    rw [ho]
    unfold pieceResult orderFrame
    rw [ha]
  obtain ⟨v, hv, hcalm, hfps, hpps⟩ := partResult_alone (u := u) (outcomeOk r) ((congrArg (fun v => v[tag]) hslots).trans hs)
    hheld hps hstate hparts hflash hplatter herror (hf.of_ct hslots harrival)
  have hpart : enginePart t = enginePart (partResult tag useNo p.segment 0 .platter (outcomeOk r) u) := by
    rw [ht, enginePart_engineEvent]
  refine ⟨v, hv.trans hucalm, (congrArg EnginePart.calm hpart).trans hcalm, ?_, ?_⟩
  · refine (congrArg EnginePart.platterOutstanding hpart).trans ?_
    show (State.pps _).outstanding = _
    rw [hpps, show u.pps.outstanding = w.pps.outstanding from congrArg EnginePart.platterOutstanding hupart, hwp, hl]
    rfl
  · refine (congrArg EnginePart.flashOutstanding hpart).trans ?_
    show (State.fps _).outstanding = _
    rw [hfps, show u.fps.outstanding = w.fps.outstanding from congrArg EnginePart.flashOutstanding hupart, hwf, hl]
    rfl

/-- Settles O42. An unknown result and a Reset Engine are read off the definition; the watch part and the count of Degraded are
kept by every result's origin, and the end of a one-piece READ frees its slot. -/
theorem orderResults : Obligations.OrderResults := by
  unfold Obligations.OrderResults
  intro s r
  refine ⟨fun p h => congrArg Host.Outcome.next (takeResult_unknown h), fun p h => congrArg Host.Outcome.next (takeResult_reset h),
    fun d hm hd => ?_, fun d tag useNo c p q hm hd ho ha hs hk hheld hps hstate hparts hflash hplatter herror hf => ?_⟩
  · intro interrupted late count starts ends counted
    obtain ⟨hx, hpass, hentries⟩ := takeResult_window hm hd
    obtain ⟨hwatch, hcount⟩ := degradation_window (s := leaveOutstanding .platter r.id s) (id := r.id)
      (service := (s.timebase - d.time).toNat)
    refine ⟨_, rfl, (congrArg (fun x => x.1.1) hx).trans hwatch, (congrArg (fun x => x.1.2.1) hx).trans hcount,
      fun h => ?_, fun h => ?_, fun h1 h2 => ?_⟩
    · have hs : degradedStarts (leaveOutstanding .platter r.id s) r.id (s.timebase - d.time).toNat := h
      have hx' := hx.trans (degradation_starts hs)
      refine ⟨congrArg (fun x => x.1.2.2) hx', hpass (by rw [watchResult_starts hs]; rfl), ?_, fun hc => ?_⟩
      · refine (congrArg (fun x => x.2.1) hx').trans ?_
        exact congrArg (fun v : Vector Occurrence 8 => v[NoticeKind.platterDegraded.index])
          (occur_occurrences_same _ _ (s := s) rfl rfl rfl)
      · exact (hentries hc).trans ((degradedEntries_starts hs).trans (bump_stats_same rfl))
    · have he : degradedEnds (leaveOutstanding .platter r.id s) r.id (s.timebase - d.time).toNat := h
      have hx' := hx.trans (degradation_ends he)
      refine ⟨congrArg (fun x => x.1.2.2) hx', hpass (by rw [watchResult_ends he]; rfl), ?_⟩
      refine (congrArg (fun x => x.2.2) hx').trans ?_
      exact congrArg (fun v : Vector Occurrence 8 => v[NoticeKind.platterRecovered.index])
        (occur_occurrences_same _ _ (s := s) rfl rfl rfl)
    · have hx' := hx.trans (degradation_neither h1 h2)
      refine ⟨congrArg (fun x => x.1.2.2) hx', fun k hk => ?_⟩
      rcases hk with rfl | rfl
      · exact congrArg (fun x => x.2.1) hx'
      · exact congrArg (fun x => x.2.2) hx'
  · obtain ⟨v, hv, hcalm, hpps, hfps⟩ := takeResult_alone hm hd ho ha hs hheld hps hstate hparts hflash hplatter herror hf
    have hbase : basePart (takeResult .platter r s) = basePart s :=
      (congrArg CalmPart.base hcalm).trans (congrArg CalmPart.base hv)
    refine ⟨_, rfl, ?_, ?_, ?_, hpps, hfps, congrArg BasePart.rc hbase, congrArg BasePart.params hbase,
      congrArg BasePart.mode hbase, congrArg BasePart.marker hbase⟩
    · refine (congrArg CalmPart.completions hcalm).trans ?_
      show v.lu.completions ++ [_] = _
      rw [show v.lu.completions = s.lu.completions from congrArg CalmPart.completions hv]
      by_cases h : r.outcome = 0 <;> simp [outcomeOk, h]
    · refine freed_of_tags (congrArg CalmPart.tags hcalm) ?_
      have huse : v.ct.slots[tag].useNo = useNo :=
        (useNo_of_tags (congrArg CalmPart.tags hv) tag).trans (congrArg TagSlot.useNo hs)
      show (v.ct.slots.set tag.val { v.ct.slots[tag] with command := none })[tag.val] = _
      rw [Vector.getElem_set_self]
      exact congrArg (fun n => TagSlot.mk n none) huse
    · refine (congrArg CalmPart.arrival hcalm).trans ?_
      show v.ct.arrival.filter _ = _
      rw [show v.ct.arrival = s.ct.arrival from congrArg CalmPart.arrival hv]

end Sys2Proof.Machine

/-! ## Moves: what serves them, eligibility and the queue's order -/

namespace Sys2Proof.Machine

/-! ### What the reports, the ports and the pieces leave of the moves, the map and the counters -/

theorem post_stats {j : Counter} (h1 : j ≠ .noticesMerged) (h2 : j ≠ .postsDeferred) (k : NoticeKind) (s : State) :
    (post k s).stats[counterIndex j] = s.stats[counterIndex j] := by
  unfold post
  dsimp only
  split
  · rfl
  · split
    · exact bump_stats_other h1.symm _
    · split
      · rfl
      · exact bump_stats_other h2.symm _

theorem occur_stats {j : Counter} (h1 : j ≠ .noticesMerged) (h2 : j ≠ .postsDeferred) (k : NoticeKind) (a : Nat) (s : State) :
    (occur k a s).stats[counterIndex j] = s.stats[counterIndex j] := by
  unfold occur
  dsimp only
  split
  · rfl
  · split
    · exact post_stats h1 h2 k _
    · rfl

/-- What the operations of `Base` leave of a state: the engine part, the moves, the map, and every counter but those of notices
that merge or wait. -/
structure Served (s t : State) : Prop where
  part : enginePart t = enginePart s
  me : t.me = s.me
  sm : t.sm = s.sm
  counters : ∀ j, j ≠ .noticesMerged → j ≠ .postsDeferred → t.stats[counterIndex j] = s.stats[counterIndex j]

theorem Served.refl (s : State) : Served s s := ⟨rfl, rfl, rfl, fun _ _ _ => rfl⟩

theorem Served.trans {r s t : State} (h : Served r s) (k : Served s t) : Served r t :=
  ⟨k.part.trans h.part, k.me.trans h.me, k.sm.trans h.sm, fun j h1 h2 => (k.counters j h1 h2).trans (h.counters j h1 h2)⟩

theorem served_base (r : State) : Base (Served r) where
  touch := fun _ h => ⟨h.part, h.me, h.sm, h.counters⟩
  occur := fun {s} k a _ _ h => ⟨(enginePart_occur k a s).trans h.part, (occur_me k a s).trans h.me,
    (congrArg WorkPart.sm (occur_work k a s)).trans h.sm, fun j h1 h2 => (occur_stats h1 h2 k a s).trans (h.counters j h1 h2)⟩
  monitor := fun m hm h => ⟨(enginePart_core (· = enginePart r)).monitor m hm h.part, h.me, h.sm, h.counters⟩
  tracker := fun c hc h => ⟨(enginePart_core (· = enginePart r)).tracker c hc h.part, h.me, h.sm, h.counters⟩
  held := fun _ h => ⟨h.part, h.me, h.sm, h.counters⟩
  operation := fun o ho h => ⟨(enginePart_core (· = enginePart r)).operation o ho h.part, h.me, h.sm, h.counters⟩
  flash := fun q hq h => ⟨(enginePart_core (· = enginePart r)).flash q hq h.part, h.me, h.sm, h.counters⟩
  platter := fun q hq h => ⟨(enginePart_core (· = enginePart r)).platter q hq h.part, h.me, h.sm, h.counters⟩
  reissued := fun _ _ _ _ h => ⟨h.part, h.me, h.sm, h.counters⟩

theorem Served.lookup {s t : State} (h : Served s t) (g : Nat) : lookup g t = lookup g s := by
  unfold Machine.lookup
  rw [h.sm]

/-! ### Eligibility (R112) -/

theorem moveLevel_eq (m : Move) : moveLevel m = levelOf m.kind := by
  unfold moveLevel levelOf
  cases m.kind <;> rfl

theorem isFlush_eq_false {m : Move} : isFlush m.kind = false ↔ m.kind = .promote ∨ m.kind = .directed := by
  cases m.kind <;> simp [isFlush]

theorem mem_segmentsOf {c : Command} {g : Nat} :
    g ∈ segmentsOf c ↔ c.length ≠ 0 ∧ c.start / 128 ≤ g ∧ g ≤ (c.start + c.length - 1) / 128 := by
  by_cases h : c.length = 0
  · simp [segmentsOf, h]
  · rw [segmentsOf_eq h, List.mem_map]
    constructor
    · rintro ⟨i, hi, rfl⟩
      rw [List.mem_range] at hi
      omega
    · rintro ⟨-, h1, h2⟩
      exact ⟨g - c.start / 128, List.mem_range.2 (by omega), by omega⟩

theorem writePending_iff (g : Nat) (s : State) : writePending g s = true ↔
    ∃ (tag : Fin 32) (c : Command), commandOf tag s = some c ∧ (c.kind = .write ∨ c.kind = .trim)
      ∧ (if c.held then c.length ≠ 0 ∧ c.start / 128 ≤ g ∧ g ≤ (c.start + c.length - 1) / 128
        else ∃ p ∈ c.pieces, p.segment = g ∧ p.state ≠ .done ∧ p.state ≠ .failed) := by
  have hone : ∀ c : Command, (changes c.kind && (if c.held then (segmentsOf c).contains g
      else c.pieces.any fun p => p.segment == g && !ended p)) = true ↔ (c.kind = .write ∨ c.kind = .trim)
      ∧ (if c.held then c.length ≠ 0 ∧ c.start / 128 ≤ g ∧ g ≤ (c.start + c.length - 1) / 128
        else ∃ p ∈ c.pieces, p.segment = g ∧ p.state ≠ .done ∧ p.state ≠ .failed) := by
    intro c
    have hkind : changes c.kind = true ↔ c.kind = .write ∨ c.kind = .trim := by simp [changes]
    rw [Bool.and_eq_true, hkind]
    refine and_congr_right fun _ => ?_
    split
    · rw [List.contains_iff_mem, mem_segmentsOf]
    · simp [List.any_eq_true, ended]
  unfold writePending
  rw [List.any_eq_true]
  constructor
  · rintro ⟨x, hx, h⟩
    obtain ⟨i, hi, rfl⟩ := List.getElem_of_mem hx
    simp only [Vector.length_toList] at hi
    split at h
    · rename_i c hc
      exact ⟨⟨i, hi⟩, c, by simpa [commandOf] using hc, (hone c).1 h⟩
    · cases h
  · rintro ⟨tag, c, hc, h⟩
    refine ⟨s.ct.slots[tag], by simp, ?_⟩
    rw [show s.ct.slots[tag].command = some c from hc]
    exact (hone c).2 h

theorem eligible_iff (m : Move) (s : State) : eligible m s = true ↔
    s.lu.mode = .online ∧ s.pm.state = .ready ∧ s.fps.level < moveLevel m ∧ s.pps.level < moveLevel m
      ∧ (m.kind = .promote ∨ m.kind = .directed → s.sm.freeList ≠ [] ∧ ¬ writePending m.segment s = true) := by
  unfold eligible
  rw [moveLevel_eq, ← isFlush_eq_false]
  simp only [Bool.and_eq_true, beq_iff_eq, decide_eq_true_eq, Bool.or_eq_true, Bool.not_eq_true', List.isEmpty_eq_false_iff]
  constructor
  · rintro ⟨⟨⟨⟨h1, h2⟩, h3⟩, h4⟩, h5⟩
    exact ⟨h1, h2, h3, h4, fun hf => by simpa [hf] using h5⟩
  · rintro ⟨h1, h2, h3, h4, h5⟩
    refine ⟨⟨⟨⟨h1, h2⟩, h3⟩, h4⟩, ?_⟩
    cases hf : isFlush m.kind
    · simpa using h5 hf
    · exact .inl rfl

/-! ### The queue's order (R111) -/

/-- A move joins a queue in order of level behind the last move of its level or above. -/
theorem enqueue_split (m : Move) {q : List Move} (hq : q.Pairwise fun a b => moveLevel b ≤ moveLevel a) :
    ∃ before after, q = before ++ after ∧ enqueue m q = before ++ m :: after
      ∧ (∀ x ∈ before, moveLevel m ≤ moveLevel x) ∧ ∀ x ∈ after, moveLevel x < moveLevel m := by
  induction q with
  | nil => exact ⟨[], [], rfl, rfl, by simp, by simp⟩
  | cons x xs ih =>
    obtain ⟨hx, hxs⟩ := List.pairwise_cons.1 hq
    unfold enqueue
    rw [← moveLevel_eq, ← moveLevel_eq]
    by_cases h : moveLevel x < moveLevel m
    · rw [if_pos h]
      refine ⟨[], x :: xs, rfl, rfl, by simp, fun y hy => ?_⟩
      rcases List.mem_cons.1 hy with rfl | hy
      · exact h
      · exact Nat.lt_of_le_of_lt (hx y hy) h
    · rw [if_neg h]
      obtain ⟨before, after, rfl, he, hb, ha⟩ := ih hxs
      refine ⟨x :: before, after, rfl, by rw [he]; rfl, fun y hy => ?_, ha⟩
      rcases List.mem_cons.1 hy with rfl | hy
      · exact Nat.not_lt.1 h
      · exact hb y hy

/-! ### An event of the engine that asks for no move -/

/-- A state that differs in the staging slots of the moves and in what the ports and the pieces do. -/
structure Pumped (s t : State) : Prop where
  part : enginePart t = enginePart s
  me : ∃ a b, t.me = { s.me with slot0 := a, slot1 := b }
  sm : t.sm = s.sm
  counters : ∀ j, j ≠ .noticesMerged → j ≠ .postsDeferred → t.stats[counterIndex j] = s.stats[counterIndex j]

theorem Served.pumped {s t : State} (h : Served s t) : Pumped s t := ⟨h.part, ⟨_, _, h.me⟩, h.sm, h.counters⟩

theorem Pumped.served {r s t : State} (h : Pumped r s) (k : Served s t) : Pumped r t := by
  obtain ⟨a, b, hme⟩ := h.me
  exact ⟨k.part.trans h.part, ⟨a, b, k.me.trans hme⟩, k.sm.trans h.sm,
    fun j h1 h2 => (k.counters j h1 h2).trans (h.counters j h1 h2)⟩

theorem Pumped.slots {r s t : State} (h : Pumped r s) (hme : ∃ a b, t.me = { s.me with slot0 := a, slot1 := b })
    (hpart : enginePart t = enginePart s) (hsm : t.sm = s.sm) (hstats : t.stats = s.stats) : Pumped r t := by
  obtain ⟨a, b, hme⟩ := hme
  obtain ⟨c, d, hr⟩ := h.me
  refine ⟨hpart.trans h.part, ⟨a, b, by rw [hme, hr]⟩, hsm.trans h.sm, fun j h1 h2 => ?_⟩
  rw [hstats]
  exact h.counters j h1 h2

theorem Pumped.holdSlot {r s : State} (slot : Nat) (k : ChunkSlot) (h : Pumped r s) : Pumped r (holdSlot slot k s) := by
  unfold Machine.holdSlot
  split
  · exact h.slots ⟨_, s.me.slot1, rfl⟩ rfl rfl rfl
  · exact h.slots ⟨s.me.slot0, _, rfl⟩ rfl rfl rfl

theorem Pumped.setStage {r s : State} (c : Nat) (st : ChunkStage) (h : Pumped r s) : Pumped r (setStage c st s) :=
  h.slots ⟨_, _, rfl⟩ rfl rfl rfl

theorem Pumped.startChunk {r s : State} (h : Pumped r s) : Pumped r (startChunk s) := by
  unfold Machine.startChunk
  split
  · exact h
  · split
    · split
      · exact h
      · split
        · exact h.holdSlot _ _
        · split
          · exact (h.holdSlot _ _).served ((served_base _).placeBackground _ (.refl _))
          · exact h
    · exact h

theorem Pumped.placeWrite {r s : State} (h : Pumped r s) : Pumped r (placeWrite s) := by
  unfold Machine.placeWrite
  split
  · split
    · exact (h.setStage _ _).served ((served_base _).placeBackground _ (.refl _))
    · exact h
  · exact h

theorem Pumped.pumpChunks {r s : State} (h : Pumped r s) : Pumped r (pumpChunks s) := by
  unfold Machine.pumpChunks
  split
  · exact h
  · exact h.placeWrite.placeWrite.startChunk.startChunk.placeWrite.placeWrite

theorem pauseTest_online {s : State} (h : s.lu.mode ≠ .saving) : pauseTest s = s := by
  unfold pauseTest
  rw [if_neg (by simp [h])]

/-- Outside a save and a Reset Engine an event ends with the chunks' going on. -/
theorem engineEvent_pumps {s w : State} (hr : s.lu.marker ≠ .resetEngine) (hw : engineChecks s = w) (hm : w.lu.mode ≠ .saving) :
    engineEvent s = releaseYields (pumpChunks w) ∧ Pumped w (engineEvent s) := by
  have hp : Pumped w (pumpChunks w) := ((Served.refl w).pumped).pumpChunks
  have hmode : (pumpChunks w).lu.mode = w.lu.mode := congrArg (fun p => p.calm.base.mode) hp.part
  have he : engineEvent s = releaseYields (pumpChunks w) := by
    unfold engineEvent
    rw [if_neg (by simpa [inReset] using hr), hw, pauseTest_online (hmode ▸ hm)]
  exact ⟨he, he ▸ hp.served ((served_base _).releaseWhere _ (.refl _))⟩

theorem flushCandidate_none {s : State} (h : s.sm.dirty = []) : flushCandidate s = none := by
  unfold flushCandidate
  rw [h]
  rfl

theorem urgentCheck_idle {s : State} (h : s.sm.dirty = [] ∨ levelExists 4 s = true ∨ s.me.urgent = false) :
    urgentCheck s = s := by
  unfold urgentCheck
  rcases h with h | h | h
  · rw [flushCandidate_none h]
    split <;> rfl
  · rw [if_neg (by simp [h])]
  · rw [if_neg (by simp [h])]

theorem flushCheck_idle {s : State} (h : s.sm.dirty = [] ∨ levelExists 4 s = true ∨ levelExists 2 s = true) :
    flushCheck s = s := by
  unfold flushCheck
  rcases h with h | h | h
  · rw [flushCandidate_none h]
    split <;> rfl
  · rw [if_neg (by simp [h])]
  · rw [if_neg (by simp [h])]

/-- The tests of an event online, where nothing asks for a flush. -/
theorem engineChecks_online {s : State} (hm : s.lu.mode = .online) (hr : s.lu.marker ≠ .resetEngine)
    (h : s.sm.dirty = [] ∨ levelExists 4 s = true ∨ (levelExists 2 s = true ∧ s.me.urgent = false)) :
    engineChecks s = arbiter ((preemptTest s).me.queue.length + 1) (preemptTest s) := by
  have ht : engineTests s = true := by simp [engineTests, hm, inReset, hr]
  have hu : urgentCheck s = s := urgentCheck_idle (h.imp_right (.imp_right And.right))
  have hf : flushCheck s = s := flushCheck_idle (h.imp_right (.imp_right And.left))
  unfold engineChecks
  rw [if_pos ht, hu, hf]
  exact if_neg (by simp [hm])

theorem arbiter_active {s : State} {m : Move} (h : s.me.active = some m) (fuel : Nat) : arbiter fuel s = s := by
  cases fuel with
  | zero => rfl
  | succ fuel =>
    unfold arbiter
    rw [h]

theorem preemptTest_empty {s : State} {m : Move} (h : s.me.active = some m) (hq : s.me.queue = []) (hp : m.preempt = false) :
    preemptTest s = s := by
  unfold preemptTest
  rw [h]
  simp [hq, hp]

/-- An event with an active move, an empty queue and nothing to ask for moves the chunks alone. -/
theorem engineChecks_settled {s : State} {m : Move} (hm : s.lu.mode = .online) (hr : s.lu.marker ≠ .resetEngine)
    (h : s.sm.dirty = [] ∨ levelExists 4 s = true ∨ (levelExists 2 s = true ∧ s.me.urgent = false))
    (ha : s.me.active = some m) (hq : s.me.queue = []) (hp : m.preempt = false) : engineChecks s = s := by
  rw [engineChecks_online hm hr h, preemptTest_empty ha hq hp, arbiter_active ha]

end Sys2Proof.Machine

/-! ## Moves: the chunks of a promotion -/

namespace Sys2Proof.Machine

theorem releaseWhere_work (test : Fin 32 → Command → Piece → Bool) (s : State) :
    (releaseWhere test s).fps = s.fps ∧ (releaseWhere test s).pps = s.pps ∧ (releaseWhere test s).sm = s.sm
      ∧ (releaseWhere test s).me = s.me := by
  unfold releaseWhere
  split
  · simp
  · exact ⟨rfl, rfl, rfl, rfl⟩

/-- An order placed in a Background queue, as the engine sees it. -/
theorem placeBackground_work (o : Order) (s : State) :
    workPart (placeBackground o s)
      = workPart (setSched o.port { sched o.port s with background := (sched o.port s).background ++ [o] } s) :=
  reportWork_work _

/-! ### The steps of a promotion's chunks (R115, R116) -/

theorem backgroundRoom_iff (p : Port) (s : State) : backgroundRoom p s = true ↔ (sched p s).background.length < 16 := by
  unfold backgroundRoom Config.backgroundCapacity
  exact decide_eq_true_iff

theorem placeWrite_idle {s : State} (h : waitingSlot s = none) : placeWrite s = s := by
  unfold placeWrite
  rw [h]
  split
  · rename_i h1 h2
    cases h2
  · rfl

/-- The write of a promotion's chunk that waits in the first slot. -/
theorem placeWrite_promotion {s : State} {m : Move} {c : Nat} (ha : s.me.active = some m) (hf : isFlush m.kind = false)
    (hs : m.stop = none) (h0 : s.me.slot0 = some ⟨c, .writeWaiting⟩) (h1 : s.me.slot1 = none)
    (hroom : s.fps.background.length < 16) :
    placeWrite s = placeBackground (chunkOrder m c 0 .flash .write (chunkMask c)) (setStage c .writing s) := by
  have hw : waitingSlot s = some (0, c) := by
    unfold waitingSlot
    rw [h0, h1]
    rfl
  have hr : backgroundRoom .flash s = true := (backgroundRoom_iff .flash s).2 hroom
  unfold placeWrite
  rw [ha, hw]
  simp [hs, targetPort, hf, hr]

theorem startChunk_full {s : State} {a b : ChunkSlot} (h0 : s.me.slot0 = some a) (h1 : s.me.slot1 = some b) :
    startChunk s = s := by
  have hslot : freeSlotNumber s = none := by simp [freeSlotNumber, h0, h1]
  unfold startChunk
  rw [hslot]
  split
  · rfl
  · split
    · rename_i h _
      cases h
    · rfl

/-- The read that a promotion with one chunk under way begins, where it needs one and has room for it. -/
theorem startChunk_promotion {s : State} {m : Move} {a : ChunkSlot} (ha : s.me.active = some m) (hf : isFlush m.kind = false)
    (hgate : chunkGate m s = true) (h0 : s.me.slot0 = some a) (h1 : s.me.slot1 = none)
    (hread : ∀ x < 4, readPart m x s = chunkMask x ∧ chunkMask x ≠ 0) (hneed : m.needed.isSome = true) :
    startChunk s = match nextChunk m s with
      | some x => if s.pps.background.length < 16 then
          placeBackground (chunkOrder m x 1 .platter .read (chunkMask x)) (holdSlot 1 ⟨x, .reading⟩ s) else s
      | none => s := by
  have hslot : freeSlotNumber s = some 1 := by simp [freeSlotNumber, h0, h1]
  unfold startChunk
  rw [ha, hslot]
  cases hn : nextChunk m s with
  | none => simp [hn]
  | some x =>
    have hx : x < 4 := by
      obtain ⟨need, hneed⟩ := Option.isSome_iff_exists.1 hneed
      unfold nextChunk at hn
      rw [hneed] at hn
      exact List.mem_range.1 (List.mem_of_find?_eq_some hn)
    obtain ⟨hpart, hne⟩ := hread x hx
    dsimp only
    rw [hn]
    dsimp only
    rw [hpart, show sourcePort m.kind = .platter by simp [sourcePort, hf], hf, if_neg (by simp [hgate]), if_neg (by simpa using hne)]
    by_cases hroom : s.pps.background.length < 16
    · rw [if_pos hroom, if_pos ((backgroundRoom_iff .platter s).2 hroom)]
      rfl
    · rw [if_neg hroom, if_neg (fun h => hroom ((backgroundRoom_iff .platter s).1 h))]

theorem chunkMask_ne_zero {c : Nat} (hc : c < 4) : chunkMask c ≠ 0 := by
  intro h
  have hbit : (chunkMask c).getLsbD (32 * c) = true := (rangeMask_bit (by omega)).2 ⟨by omega, by omega⟩
  rw [h] at hbit
  simp at hbit

/-- Every chunk of a segment within the platter is read whole. -/
theorem readPart_whole {m : Move} {s : State} (h : 128 * m.segment + 128 ≤ s.lu.platterSectors) (c : Nat) :
    readPart m c s = chunkMask c := by
  refine BitVec.eq_of_getLsbD_eq fun i hi => ?_
  have hp : (platterMask s m.segment).getLsbD i = true := (rangeMask_bit hi).2 ⟨by omega, by omega⟩
  simp [readPart, hp]

/-- The next chunk that a promotion needs beside the one under way. -/
theorem nextChunk_beside {m : Move} {s : State} {c x : Nat} {st : ChunkStage} (h0 : s.me.slot0 = some ⟨c, st⟩)
    (h1 : s.me.slot1 = none) (hneed : m.needed.isSome = true) (hx : x < 4)
    (hrest : (m.needed.getD 0).getLsbD x = true ∧ m.done.getLsbD x = false ∧ x ≠ c)
    (hfirst : ∀ y, y < x → ¬ ((m.needed.getD 0).getLsbD y = true ∧ m.done.getLsbD y = false ∧ y ≠ c)) :
    nextChunk m s = some x := by
  obtain ⟨need, hneed⟩ := Option.isSome_iff_exists.1 hneed
  rw [hneed, Option.getD_some] at hrest hfirst
  have hheld : ∀ y, chunkHeld y s = (c == y) := fun y => by simp [chunkHeld, h0, h1]
  unfold nextChunk
  rw [hneed]
  dsimp only
  rw [List.find?_range_eq_some]
  refine ⟨?_, List.mem_range.2 hx, fun y hy => ?_⟩
  · simp [hheld, hrest.1, hrest.2.1, Ne.symm hrest.2.2]
  · have := hfirst y hy
    simp only [hheld]
    grind

/-- A promotion whose chunk waits for its write, with nothing else under way, in a state where it may go on. -/
structure Writing (m : Move) (c : Nat) (s : State) : Prop where
  mode : s.lu.mode = .online
  marker : s.lu.marker ≠ .resetEngine
  active : s.me.active = some m
  kind : isFlush m.kind = false
  stop : m.stop = none
  preempt : m.preempt = false
  yielding : m.yielding = false
  needed : m.needed.isSome = true
  slot0 : s.me.slot0 = some ⟨c, .writeWaiting⟩
  slot1 : s.me.slot1 = none
  room : s.fps.background.length < 16
  inside : 128 * m.segment + 128 ≤ s.lu.platterSectors

/-- The state as that chunk's write is placed. -/
def writePlaced (m : Move) (c : Nat) (s : State) : State :=
  placeBackground (chunkOrder m c 0 .flash .write (chunkMask c)) (setStage c .writing s)

theorem writePlaced_work {m : Move} {c : Nat} {s : State} (h0 : s.me.slot0 = some ⟨c, .writeWaiting⟩)
    (h1 : s.me.slot1 = none) : workPart (writePlaced m c s) = { workPart s with
      me := { s.me with slot0 := some ⟨c, .writing⟩ }
      fps := { s.fps with background := s.fps.background ++ [chunkOrder m c 0 .flash .write (chunkMask c)] } } := by
  refine (placeBackground_work _ _).trans ?_
  have hme : (setStage c .writing s).me = { s.me with slot0 := some ⟨c, .writing⟩ } := by
    unfold setStage
    simp [h0, h1]
  show ({ workPart s with me := (setStage c .writing s).me, fps := _ } : WorkPart) = _
  rw [hme]
  rfl

/-- The read that a promotion begins in the second slot. -/
def readPlaced (m : Move) (x : Nat) (s : State) : State :=
  placeBackground (chunkOrder m x 1 .platter .read (chunkMask x)) (holdSlot 1 ⟨x, .reading⟩ s)

theorem readPlaced_work (m : Move) (x : Nat) (s : State) : workPart (readPlaced m x s) = { workPart s with
    me := { s.me with slot1 := some ⟨x, .reading⟩ }
    pps := { s.pps with background := s.pps.background ++ [chunkOrder m x 1 .platter .read (chunkMask x)] } } :=
  placeBackground_work _ _

/-- The chunks of a promotion go on from a read that has ended: its write is placed, and the next chunk's read where one is
needed and the queue has room. -/
theorem pumpChunks_writing {m : Move} {c : Nat} {s : State} (h : Writing m c s) :
    pumpChunks s = match nextChunk m (writePlaced m c s) with
      | some x => if s.pps.background.length < 16 then readPlaced m x (writePlaced m c s) else writePlaced m c s
      | none => writePlaced m c s := by
  have hwork := writePlaced_work (m := m) h.slot0 h.slot1
  have hplace : placeWrite s = writePlaced m c s := placeWrite_promotion h.active h.kind h.stop h.slot0 h.slot1 h.room
  generalize writePlaced m c s = w at hwork hplace ⊢
  have hme : w.me = { s.me with slot0 := some ⟨c, .writing⟩ } := congrArg WorkPart.me hwork
  have hpps : w.pps = s.pps := congrArg WorkPart.pps hwork
  have hmode : w.lu.mode = s.lu.mode := congrArg WorkPart.mode hwork
  have hmarker : w.lu.marker = s.lu.marker := congrArg WorkPart.marker hwork
  have hsectors : w.lu.platterSectors = s.lu.platterSectors := congrArg WorkPart.platterSectors hwork
  have h0 : w.me.slot0 = some ⟨c, .writing⟩ := by rw [hme]
  have h1 : w.me.slot1 = none := by rw [hme]; exact h.slot1
  have hgate : chunkGate m w = true := by
    simp [chunkGate, h.stop, h.preempt, h.yielding, hmode, h.mode, inReset, hmarker, h.marker]
  have hstart := startChunk_promotion (s := w) (by rw [hme]; exact h.active) h.kind hgate h0 h1
    (fun x hx => ⟨readPart_whole (hsectors ▸ h.inside) x, chunkMask_ne_zero hx⟩) h.needed
  rw [hpps] at hstart
  have hidle : ∀ v : State, v.me.slot0 = some ⟨c, .writing⟩ → (v.me.slot1 = none ∨ ∃ x, v.me.slot1 = some ⟨x, .reading⟩) →
      placeWrite v = v := fun v hv0 hv1 => by
    refine placeWrite_idle ?_
    unfold waitingSlot
    rcases hv1 with hv1 | ⟨x, hv1⟩ <;> rw [hv0, hv1] <;> rfl
  have hpump : ∀ v, startChunk w = v → startChunk v = v → placeWrite v = v → pumpChunks s = v := fun v hv hs hp => by
    unfold pumpChunks
    rw [if_neg (by simpa [inReset] using h.marker), hplace, hidle w h0 (.inl h1), hv, hs, hp, hp]
  cases hn : nextChunk m w with
  | none =>
    rw [hn] at hstart
    exact hpump w hstart hstart (hidle w h0 (.inl h1))
  | some x =>
    rw [hn] at hstart
    dsimp only at hstart ⊢
    split
    · rename_i hroom
      rw [if_pos hroom] at hstart
      have hvme : (readPlaced m x w).me = { w.me with slot1 := some ⟨x, .reading⟩ } :=
        congrArg WorkPart.me (readPlaced_work m x w)
      have hv0 : (readPlaced m x w).me.slot0 = some ⟨c, .writing⟩ := by rw [hvme]; exact h0
      have hv1 : (readPlaced m x w).me.slot1 = some ⟨x, .reading⟩ := by rw [hvme]
      exact hpump _ hstart (startChunk_full hv0 hv1) (hidle _ hv0 (.inr ⟨x, hv1⟩))
    · rename_i hroom
      rw [if_neg hroom] at hstart
      exact hpump w hstart hstart (hidle w h0 (.inl h1))

/-- The OK of a promotion's chunk read: the chunk waits for its write. -/
theorem chunkResult_read {m : Move} {c : Nat} {s : State} (ha : s.me.active = some m) (hf : isFlush m.kind = false)
    (hs : m.stop = none) (h0 : s.me.slot0 = some ⟨c, .reading⟩) :
    chunkResult m.number c .read true s = setStage c .writeWaiting s := by
  have hread : chunkReadOk m c s = setStage c .writeWaiting s := by
    unfold chunkReadOk
    simp [hs, hf]
  have hflight : chunkInFlight (setStage c .writeWaiting s) = true := by
    unfold chunkInFlight setStage
    simp [h0]
  have hfinish : finishTest (setStage c .writeWaiting s) = setStage c .writeWaiting s := by
    unfold finishTest
    rw [hflight]
    split
    · split
      · exact if_neg (by simp)
      · rfl
    · rfl
  unfold chunkResult
  rw [ha]
  dsimp only
  rw [if_neg (by simp), if_neg (by simp), if_pos rfl, hread, hfinish]

/-- The OK of a promotion's platter read (R115, R116). -/
theorem takeResult_chunkRead {s : State} {m : Move} {c : Nat} {r : OrderResult} {d : Dispatched} (hmode : s.lu.mode = .online)
    (hmarker : s.lu.marker ≠ .resetEngine) (ha : s.me.active = some m) (hstop : m.stop = none) (hk : isFlush m.kind = false)
    (hpre : m.preempt = false) (hyield : m.yielding = false) (hneed : m.needed.isSome = true) (hq : s.me.queue = [])
    (hdirty : s.sm.dirty = []) (h0 : s.me.slot0 = some ⟨c, .reading⟩) (h1 : s.me.slot1 = none)
    (hd : (s.pps.outstanding.find? fun x => x.id == r.id) = some d) (ho : d.order.origin = .chunk m.number c)
    (hop : d.order.op = .read) (hok : r.outcome = 0) (hroom : s.fps.background.length < 16)
    (hin : 128 * m.segment + 128 ≤ s.lu.platterSectors) :
    let t := takeResult .platter r s
    t.fps.background = s.fps.background ++ [chunkOrder m c 0 .flash .write (chunkMask c)]
      ∧ t.me.slot0 = some ⟨c, .writing⟩ ∧ t.me.active = some m ∧ t.me.stack = s.me.stack ∧ t.sm = s.sm
      ∧ ∀ x, x < 4 → ((m.needed.getD 0).getLsbD x = true ∧ m.done.getLsbD x = false ∧ x ≠ c) →
          (∀ y, y < x → ¬ ((m.needed.getD 0).getLsbD y = true ∧ m.done.getLsbD y = false ∧ y ≠ c)) →
          s.pps.background.length < 16 →
          t.pps.background = s.pps.background ++ [chunkOrder m x 1 .platter .read (chunkMask x)]
            ∧ t.me.slot1 = some ⟨x, .reading⟩ := by
  intro t
  have ht := takeResult_platter hmarker hd
  have hwork : workPart (reportWork (watchResult r.id (s.timebase - d.time).toNat (leaveOutstanding .platter r.id s)))
      = { workPart s with pps := { s.pps with outstanding := s.pps.outstanding.filter fun d => d.id != r.id } } := by
    rw [reportWork_work, watchResult_work]
    rfl
  generalize reportWork (watchResult r.id (s.timebase - d.time).toNat (leaveOutstanding .platter r.id s)) = u at ht hwork
  have hume : u.me = s.me := congrArg WorkPart.me hwork
  have husm : u.sm = s.sm := congrArg WorkPart.sm hwork
  have hufps : u.fps = s.fps := congrArg WorkPart.fps hwork
  have hupps : u.pps.background = s.pps.background := congrArg (fun w => w.pps.background) hwork
  have humode : u.lu.mode = s.lu.mode := congrArg WorkPart.mode hwork
  have humarker : u.lu.marker = s.lu.marker := congrArg WorkPart.marker hwork
  have husectors : u.lu.platterSectors = s.lu.platterSectors := congrArg WorkPart.platterSectors hwork
  have hhand : handToOrigin d r u = setStage c .writeWaiting u := by
    unfold handToOrigin
    rw [ho, hop, show outcomeOk r = true by simp [outcomeOk, hok]]
    exact chunkResult_read (by rw [hume]; exact ha) hk hstop (by rw [hume]; exact h0)
  rw [hhand] at ht
  obtain ⟨v, hv⟩ : ∃ v, v = setStage c .writeWaiting u := ⟨_, rfl⟩
  have hvme : v.me = { s.me with slot0 := some ⟨c, .writeWaiting⟩ } := by
    rw [hv]
    unfold setStage
    simp [hume, h0, h1]
  have hvrest : v.sm = s.sm ∧ v.fps = s.fps ∧ v.pps.background = s.pps.background ∧ v.lu.mode = s.lu.mode
      ∧ v.lu.marker = s.lu.marker ∧ v.lu.platterSectors = s.lu.platterSectors := by
    rw [hv]
    exact ⟨husm, hufps, hupps, humode, humarker, husectors⟩
  rw [← hv] at ht
  obtain ⟨hvsm, hvfps, hvpps, hvmode, hvmarker, hvsectors⟩ := hvrest
  have hchecks : engineChecks v = v := engineChecks_settled (m := m) (hvmode.trans hmode) (hvmarker ▸ hmarker)
    (.inl (hvsm ▸ hdirty)) (by rw [hvme]; exact ha) (by rw [hvme]; exact hq) hpre
  obtain ⟨hevent, hpumped⟩ := engineEvent_pumps (hvmarker ▸ hmarker) hchecks (by rw [hvmode, hmode]; decide)
  have hwriting : Writing m c v := ⟨hvmode.trans hmode, hvmarker ▸ hmarker, by rw [hvme]; exact ha, hk, hstop, hpre, hyield,
    hneed, by rw [hvme], by rw [hvme]; exact h1, hvfps ▸ hroom, hvsectors ▸ hin⟩
  have hpump := pumpChunks_writing hwriting
  have hplaced := writePlaced_work (m := m) hwriting.slot0 hwriting.slot1
  obtain ⟨hrf, hrp, -, hrm⟩ := releaseWhere_work (fun _ _ p => p.state == .held true && !yieldAwaited p.segment (pumpChunks v))
    (pumpChunks v)
  have htp : t.fps = (pumpChunks v).fps ∧ t.pps = (pumpChunks v).pps ∧ t.me = (pumpChunks v).me := by
    rw [show t = releaseYields (pumpChunks v) from ht.trans hevent]
    exact ⟨hrf, hrp, hrm⟩
  obtain ⟨htf, htpp, htm⟩ := htp
  have hkept : (pumpChunks v).fps = (writePlaced m c v).fps ∧ (pumpChunks v).me.slot0 = (writePlaced m c v).me.slot0 := by
    rw [hpump]
    split
    · rename_i x _
      split
      · have hx := readPlaced_work m x (writePlaced m c v)
        exact ⟨congrArg WorkPart.fps hx, congrArg (fun w => w.me.slot0) hx⟩
      · exact ⟨rfl, rfl⟩
    · exact ⟨rfl, rfl⟩
  have hpme := congrArg WorkPart.me hplaced
  obtain ⟨a, b, htme⟩ := hpumped.me
  have htme : t.me = { v.me with slot0 := a, slot1 := b } := (congrArg State.me ht).trans htme
  refine ⟨?_, ?_, ?_, ?_, (congrArg State.sm ht).trans (hpumped.sm.trans hvsm), fun x hx hrest hfirst hplat => ?_⟩
  · rw [htf, hkept.1, ← hvfps]
    exact congrArg (fun w => w.fps.background) hplaced
  · rw [htm, hkept.2]
    exact congrArg (fun me => me.slot0) hpme
  · rw [htme, hvme]
    exact ha
  · rw [htme, hvme]
  · have hnext : nextChunk m (writePlaced m c v) = some x := nextChunk_beside (congrArg MigrationEngine.slot0 hpme)
      ((congrArg MigrationEngine.slot1 hpme).trans hwriting.slot1) hneed hx hrest hfirst
    rw [hnext] at hpump
    dsimp only at hpump
    rw [if_pos (hvpps ▸ hplat)] at hpump
    have hread := readPlaced_work m x (writePlaced m c v)
    have hwpps : (writePlaced m c v).pps.background = s.pps.background :=
      (congrArg (fun w => w.pps.background) hplaced).trans hvpps
    rw [htpp, htm, hpump]
    refine ⟨(congrArg (fun w => w.pps.background) hread).trans ?_, congrArg (fun w => w.me.slot1) hread⟩
    show (writePlaced m c v).pps.background ++ _ = _
    rw [hwpps]

end Sys2Proof.Machine

/-! ## Moves: the writes of a promotion, its finish and its suspension -/

namespace Sys2Proof.Machine

/-! ### A flash result reported -/

theorem frameReturned_served (f : Nat) (b : Bool) (s : State) :
    Served { s with sm.frames := withInFlight f (· - 1) s.sm.frames } (frameReturned f b s) := by
  unfold frameReturned
  dsimp only
  split
  · exact (served_base _).askTrim f (.refl _)
  · exact .refl _

theorem reportResult_served (d : Dispatched) (s : State) : ∃ fr, Served { s with sm.frames := fr } (reportResult .flash d s) := by
  unfold reportResult
  dsimp only
  split
  · exact ⟨_, frameReturned_served _ _ s⟩
  · exact ⟨s.sm.frames, .refl s⟩

/-- A flash result of an outstanding order, outside a Reset Engine. -/
theorem takeResult_flash {r : OrderResult} {s : State} {d : Dispatched} (h : s.lu.marker ≠ .resetEngine)
    (hd : (s.fps.outstanding.find? fun x => x.id == r.id) = some d) :
    takeResult .flash r s = engineEvent (handToOrigin d r (reportResult .flash d (leaveOutstanding .flash r.id s))) := by
  have hr : ¬ inReset s = true := by simpa [inReset] using h
  have hout : outstandingOf .flash r.id s = some d := hd
  unfold takeResult
  rw [hout]
  dsimp only
  rw [if_neg hr]

/-! ### A promotion's chunk written (R12, R116) -/

/-- The entry after a chunk of its promotion is written. -/
def grown (c : Nat) (e : Entry) : Entry := { e with validity := validityOf (validSet e ||| chunkMask c) }

/-- The state as a promotion's chunk is written. -/
def chunkWritten (m : Move) (c : Nat) (s : State) : State := chunkDone c (promotionWrite m.segment m.number c s)

theorem marked_of_lookup {g : Nat} {n : Byte} {s : State} {e : Entry} (he : lookup g s = some e) (hm : e.marker = some n) :
    marked g n s = some e := by
  unfold marked
  rw [he]
  simp [hm]

/-- A state that differs in its moves and its map, and in no counter but those of a test. -/
structure Moved (skip : Counter → Prop) (s t : State) (me : MigrationEngine) (sm : SegmentMap) : Prop where
  part : enginePart t = enginePart s
  me : t.me = me
  sm : t.sm = sm
  counters : ∀ j, ¬ skip j → j ≠ .noticesMerged → j ≠ .postsDeferred → t.stats[counterIndex j] = s.stats[counterIndex j]

theorem chunkWritten_moved {m : Move} {c : Nat} {s : State} {e : Entry} (ha : s.me.active = some m)
    (h0 : s.me.slot0 = some ⟨c, .writing⟩) (h1 : s.me.slot1 = none) (he : lookup m.segment s = some e)
    (hm : e.marker = some m.number) : Moved (fun _ => False) s (chunkWritten m c s)
      { s.me with active := some { m with done := m.done ||| chunkBit c }, slot0 := none, slot1 := none }
      { s.sm with entries := mapEntry m.segment (grown c) s.sm.entries } := by
  have hw : promotionWrite m.segment m.number c s = modifyEntry m.segment (grown c) s := by
    unfold promotionWrite
    rw [marked_of_lookup he hm]
    rfl
  have hcore := enginePart_core (· = enginePart s)
  unfold chunkWritten
  rw [hw]
  refine ⟨hcore.freeChunk c (hcore.modifyActive _ (hcore.modifyEntry _ _ rfl)), ?_, rfl, fun j _ _ _ => rfl⟩
  show ({ s.me with
    active := s.me.active.map _, slot0 := s.me.slot0.filter _, slot1 := s.me.slot1.filter _ } : MigrationEngine) = _
  rw [ha, h0, h1]
  simp

theorem validSet_grown (c : Nat) (e : Entry) : validSet (grown c e) = validSet e ||| chunkMask c := by
  show validSet { e with validity := validityOf (validSet e ||| chunkMask c) } = _
  unfold validityOf
  split
  · rename_i h
    rw [h]
    rfl
  · rfl

theorem validSet_grown_ne_zero {c : Nat} (hc : c < 4) (e : Entry) : validSet (grown c e) ≠ 0 := by
  rw [validSet_grown]
  intro h
  refine chunkMask_ne_zero hc (BitVec.eq_of_getLsbD_eq fun i _ => ?_)
  have hbit := congrArg (fun v : SectorSet => v.getLsbD i) h
  simp at hbit
  simp [hbit.2]

/-- The OK of a promotion's chunk write: the chunk is written, and the finish test follows. -/
theorem chunkResult_write {m : Move} {c : Nat} {s : State} {e : Entry} (ha : s.me.active = some m) (hk : isFlush m.kind = false)
    (hs : m.stop = none) (h0 : s.me.slot0 = some ⟨c, .writing⟩) (h1 : s.me.slot1 = none) (he : lookup m.segment s = some e)
    (hm : e.marker = some m.number) : chunkResult m.number c .write true s = finishTest (chunkWritten m c s) := by
  have hwork := (chunkWritten_moved ha h0 h1 he hm).me
  have hdrained : endIfDrained (chunkWritten m c s) = chunkWritten m c s := by
    unfold endIfDrained
    rw [hwork]
    simp [hs]
  have hwrite : chunkWriteOk m c s = chunkWritten m c s := by
    unfold chunkWriteOk
    rw [if_neg (by simp [hk])]
    exact hdrained
  unfold chunkResult
  rw [ha]
  dsimp only
  rw [if_neg (by simp), if_neg (by simp), if_neg (by decide), hwrite]

/-- The chunks that a move still needs when a chunk is done. -/
def leftAfter (m : Move) (c : Nat) : ChunkSet := m.needed.getD 0 &&& ~~~(m.done ||| chunkBit c)

theorem finishTest_drained {m : Move} {s : State} (ha : s.me.active = some m) (hs : m.stop = none) (hn : m.needed.isSome = true)
    (h0 : s.me.slot0 = none) (h1 : s.me.slot1 = none) :
    finishTest s = if m.needed.getD 0 &&& ~~~m.done = 0 then removeMove m.number (reportFinished m s) else s := by
  obtain ⟨need, hneed⟩ := Option.isSome_iff_exists.1 hn
  unfold finishTest
  rw [ha]
  dsimp only
  rw [hneed]
  simp [hs, chunkInFlight, h0, h1]

/-- An entry as its promotion has finished. -/
def settled (e : Entry) : Entry := { e with state := .clean, marker := none }

/-- The finish of a promotion on its entry (R12). -/
theorem promotionFinish_moved {g : Nat} {n : Byte} {s : State} {e : Entry} (he : lookup g s = some e) (hm : e.marker = some n)
    (hs : e.state = .inbound) (hv : validSet e ≠ 0) : Moved (fun _ => False) s (promotionFinish g n s) s.me
      { s.sm with
        entries := mapEntry g settled s.sm.entries
        reclaim := s.sm.reclaim.filter (fun x => x != g) ++ [g] } := by
  have hf : promotionFinish g n s
      = toReclaimTail g (modifyEntry g settled s) := by
    unfold promotionFinish
    rw [marked_of_lookup he hm]
    dsimp only
    rw [if_neg (by simp [hs]), if_neg hv]
    rfl
  have hcore := enginePart_core (· = enginePart s)
  rw [hf]
  exact ⟨hcore.toReclaimTail _ (hcore.modifyEntry _ _ rfl), rfl, rfl, fun j _ _ _ => rfl⟩

theorem removeMove_moved (n : Byte) (s : State) : Moved (fun _ => False) s (removeMove n s)
    { s.me with
      queue := s.me.queue.filter fun m => m.number != n
      stack := s.me.stack.filter fun m => m.number != n
      active := s.me.active.filter fun m => m.number != n } s.sm := by
  have h := (served_base _).reportWork (.refl { s with
    me.queue := s.me.queue.filter fun m => m.number != n
    me.stack := s.me.stack.filter fun m => m.number != n
    me.active := s.me.active.filter fun m => m.number != n })
  exact ⟨h.part, h.me, h.sm, fun j _ => h.counters j⟩

theorem Moved.mode {skip : Counter → Prop} {s t : State} {me : MigrationEngine} {sm : SegmentMap} (h : Moved skip s t me sm) :
    t.lu.mode = s.lu.mode := congrArg (fun p => p.calm.base.mode) h.part

theorem Moved.marker {skip : Counter → Prop} {s t : State} {me : MigrationEngine} {sm : SegmentMap} (h : Moved skip s t me sm) :
    t.lu.marker = s.lu.marker := congrArg (fun p => p.calm.base.marker) h.part

/-- A promotion's chunk written with others still to come (R12, R116). -/
theorem chunkResult_notLast {m : Move} {c : Nat} {s : State} {e : Entry} (ha : s.me.active = some m)
    (hk : isFlush m.kind = false) (hs : m.stop = none) (hn : m.needed.isSome = true) (h0 : s.me.slot0 = some ⟨c, .writing⟩)
    (h1 : s.me.slot1 = none) (he : lookup m.segment s = some e) (hm : e.marker = some m.number) (hleft : leftAfter m c ≠ 0) :
    Moved (fun _ => False) s (chunkResult m.number c .write true s)
      { s.me with active := some { m with done := m.done ||| chunkBit c }, slot0 := none, slot1 := none }
      { s.sm with entries := mapEntry m.segment (grown c) s.sm.entries } := by
  have hw := chunkWritten_moved ha h0 h1 he hm
  rw [chunkResult_write ha hk hs h0 h1 he hm, finishTest_drained (congrArg MigrationEngine.active hw.me) hs hn
    (congrArg MigrationEngine.slot0 hw.me) (congrArg MigrationEngine.slot1 hw.me)]
  rw [if_neg (show ¬ m.needed.getD 0 &&& ~~~(m.done ||| chunkBit c) = 0 from hleft)]
  exact hw

/-- A promotion with its last chunk written has finished (R12, R119). -/
theorem chunkResult_last {m : Move} {c : Nat} {s : State} {e : Entry} (hc : c < 4) (ha : s.me.active = some m)
    (hk : isFlush m.kind = false) (hs : m.stop = none) (hn : m.needed.isSome = true) (h0 : s.me.slot0 = some ⟨c, .writing⟩)
    (h1 : s.me.slot1 = none) (he : lookup m.segment s = some e) (hm : e.marker = some m.number) (hi : e.state = .inbound)
    (hlast : leftAfter m c = 0) (hstack : ∀ x ∈ s.me.stack, x.number ≠ m.number) (hqueue : s.me.queue = []) :
    let t := chunkResult m.number c .write true s
    Moved (· = .promotionsFinished) s t { s.me with active := none, slot0 := none, slot1 := none }
      { s.sm with
        entries := mapEntry m.segment settled
          (mapEntry m.segment (grown c) s.sm.entries)
        reclaim := s.sm.reclaim.filter (fun x => x != m.segment) ++ [m.segment] }
      ∧ t.stats[counterIndex .promotionsFinished] = (bump .promotionsFinished s).stats[counterIndex .promotionsFinished] := by
  intro t
  have hw := chunkWritten_moved ha h0 h1 he hm
  have ht : t = finishTest (chunkWritten m c s) := chunkResult_write ha hk hs h0 h1 he hm
  generalize chunkWritten m c s = w at hw ht
  have hwe : lookup m.segment w = some (grown c e) := (lookup_of_mapEntry (f := grown c) (fun _ => rfl) (congrArg SegmentMap.entries hw.sm) he).1
  have hf := promotionFinish_moved hwe hm hi (validSet_grown_ne_zero hc e)
  have hfinish : t = removeMove m.number (bump .promotionsFinished (promotionFinish m.segment m.number w)) := by
    rw [ht, finishTest_drained (congrArg MigrationEngine.active hw.me) hs hn (congrArg MigrationEngine.slot0 hw.me)
      (congrArg MigrationEngine.slot1 hw.me)]
    refine (if_pos hlast).trans ?_
    unfold reportFinished
    rw [if_neg (by simp [hk])]
  generalize promotionFinish m.segment m.number w = f at hf hfinish
  have hr := removeMove_moved m.number (bump .promotionsFinished f)
  rw [← hfinish] at hr
  refine ⟨⟨?_, ?_, ?_, fun j hj h2 h3 => ?_⟩, ?_⟩
  · rw [hr.part, enginePart_bump, hf.part, hw.part]
  · rw [hr.me, bump_me, hf.me, hw.me, hqueue]
    have hkeep : s.me.stack.filter (fun x => x.number != m.number) = s.me.stack :=
      List.filter_eq_self.2 fun x hx => bne_iff_ne.2 (hstack x hx)
    simp [hkeep, hqueue]
  · rw [hr.sm, bump_sm, hf.sm, hw.sm]
  · rw [hr.counters j (fun h => h) h2 h3, bump_stats_other (Ne.symm hj), hf.counters j (fun h => h) h2 h3,
      hw.counters j (fun h => h) h2 h3]
  · rw [hr.counters _ (fun h => h) (by decide) (by decide)]
    refine bump_stats_same ?_
    rw [hf.counters _ (fun h => h) (by decide) (by decide), hw.counters _ (fun h => h) (by decide) (by decide)]

theorem firstEligible_empty {s : State} (h : s.me.queue = []) : firstEligible s = none := by
  unfold firstEligible
  rw [h]
  rfl

/-- The tests of an event with nothing active and an empty queue: the top of the Move Stack is resumed (R113). -/
theorem engineChecks_resume {s : State} (hm : s.lu.mode = .online) (hr : s.lu.marker ≠ .resetEngine) (hd : s.sm.dirty = [])
    (ha : s.me.active = none) (hq : s.me.queue = []) :
    engineChecks s = match s.me.stack.head? with
      | some x => resume x s
      | none => s := by
  rw [engineChecks_online hm hr (.inl hd), preemptTest_none ha]
  unfold arbiter
  rw [ha, firstEligible_empty hq]
  dsimp only
  cases s.me.stack.head? <;> rfl

/-- A chunk write's OK on the Flash Port, as the move takes it: the state has what stood before but for the outstanding order and the
in-flight count of its frame. -/
theorem takeResult_chunkWrite {s : State} {n : Byte} {c : Nat} {r : OrderResult} {d : Dispatched}
    (hmarker : s.lu.marker ≠ .resetEngine) (hd : (s.fps.outstanding.find? fun x => x.id == r.id) = some d)
    (ho : d.order.origin = .chunk n c) (hop : d.order.op = .write) (hok : r.outcome = 0) :
    ∃ u fr, takeResult .flash r s = engineEvent (chunkResult n c .write true u)
      ∧ enginePart u = { enginePart s with flashOutstanding := s.fps.outstanding.filter fun d => d.id != r.id }
      ∧ u.me = s.me ∧ u.sm = { s.sm with frames := fr }
      ∧ ∀ j, j ≠ .noticesMerged → j ≠ .postsDeferred → u.stats[counterIndex j] = s.stats[counterIndex j] := by
  obtain ⟨fr, h⟩ := reportResult_served d (leaveOutstanding .flash r.id s)
  refine ⟨_, fr, ?_, h.part, h.me, h.sm, h.counters⟩
  rw [takeResult_flash hmarker hd]
  unfold handToOrigin
  rw [ho, hop, show outcomeOk r = true by simp [outcomeOk, hok]]

theorem movesExact_apart {s : State} {m : Move} (h : movesExact s) (ha : s.me.active = some m) :
    (∀ x ∈ s.me.stack, x.number ≠ m.number ∧ x.segment ≠ m.segment)
      ∧ ∀ x ∈ s.me.queue, x.number ≠ m.number ∧ x.segment ≠ m.segment := by
  obtain ⟨hn, hg, -⟩ := h
  simp only [allMoves, ha, Option.toList_some, List.cons_append, List.nil_append, List.map_cons, List.nodup_cons, List.mem_map,
    List.mem_append, not_exists, not_and] at hn hg
  exact ⟨fun x hx => ⟨hn.1 x (.inl hx), hg.1 x (.inl hx)⟩, fun x hx => ⟨hn.1 x (.inr hx), hg.1 x (.inr hx)⟩⟩

/-- The OK of a promotion's last chunk write (R116, R119). -/
theorem takeResult_last {s : State} {m : Move} {c : Nat} {r : OrderResult} {d : Dispatched} {e : Entry}
    (hmode : s.lu.mode = .online) (hmarker : s.lu.marker ≠ .resetEngine) (ha : s.me.active = some m) (hstop : m.stop = none)
    (hc : c < 4) (hk : isFlush m.kind = false) (hneed : m.needed.isSome = true) (hmoves : movesExact s)
    (h0 : s.me.slot0 = some ⟨c, .writing⟩) (h1 : s.me.slot1 = none)
    (hd : (s.fps.outstanding.find? fun x => x.id == r.id) = some d) (ho : d.order.origin = .chunk m.number c)
    (hop : d.order.op = .write) (hok : r.outcome = 0) (he : lookup m.segment s = some e) (hem : e.marker = some m.number)
    (hei : e.state = .inbound) (hlast : leftAfter m c = 0) (hq : s.me.queue = []) (hdirty : s.sm.dirty = []) :
    let t := takeResult .flash r s
    lookup m.segment t = some { grown c e with state := .clean, marker := none }
      ∧ t.sm.reclaim = (s.sm.reclaim.filter fun x => x != m.segment) ++ [m.segment]
      ∧ t.me.active = (s.me.stack.head?.map fun x => { x with state := .active })
      ∧ t.me.stack = s.me.stack.drop 1
      ∧ t.stats[counterIndex .promotionsFinished] = (bump .promotionsFinished s).stats[counterIndex .promotionsFinished] := by
  intro t
  obtain ⟨u, fr, ht, hpart, hme, hsm, hcount⟩ := takeResult_chunkWrite hmarker hd ho hop hok
  have hue : lookup m.segment u = some e := by
    unfold lookup
    rw [hsm]
    exact he
  obtain ⟨hv, hvcount⟩ := chunkResult_last hc (hme ▸ ha) hk hstop hneed (hme ▸ h0) (hme ▸ h1) hue hem hei hlast
    (fun x hx => ((movesExact_apart hmoves ha).1 x (hme ▸ hx)).1) (hme ▸ hq)
  generalize chunkResult m.number c .write true u = v at ht hv hvcount
  have hvmode : v.lu.mode = .online := (hv.mode.trans (congrArg (fun p => p.calm.base.mode) hpart)).trans hmode
  have hvmarker : v.lu.marker ≠ .resetEngine :=
    (hv.marker.trans (congrArg (fun p => p.calm.base.marker) hpart)) ▸ hmarker
  have hvme := hv.me
  rw [hme] at hvme
  have hvsm := hv.sm
  rw [hsm] at hvsm
  have hchecks := engineChecks_resume hvmode hvmarker (by rw [hvsm]; exact hdirty) (by rw [hvme]) (by rw [hvme]; exact hq)
  obtain ⟨w, hw⟩ : ∃ w, w = engineChecks v := ⟨_, rfl⟩
  have hwfacts : w.me.active = (s.me.stack.head?.map fun x => { x with state := .active }) ∧ w.me.stack = s.me.stack.drop 1
      ∧ w.sm = v.sm ∧ w.stats = v.stats ∧ w.lu.mode = .online := by
    rw [hw, hchecks, show v.me.stack = s.me.stack by rw [hvme]]
    cases hs : s.me.stack with
    | nil => exact ⟨(congrArg MigrationEngine.active hvme).trans rfl, (congrArg MigrationEngine.stack hvme).trans hs, rfl, rfl, hvmode⟩
    | cons x xs => exact ⟨rfl, by show v.me.stack.drop 1 = _; rw [hvme, hs], rfl, rfl, hvmode⟩
  obtain ⟨hwa, hws, hwsm, hwstats, hwmode⟩ := hwfacts
  obtain ⟨-, hp⟩ := engineEvent_pumps hvmarker hw.symm (by rw [hwmode]; decide)
  rw [← ht] at hp
  obtain ⟨a, b, hpme⟩ := hp.me
  have htsm : t.sm = _ := (hp.sm.trans hwsm).trans hvsm
  refine ⟨?_, congrArg SegmentMap.reclaim htsm, ?_, ?_, ?_⟩
  · have h2 := (lookup_of_mapEntry (f := grown c) (t := { s with sm.entries := mapEntry m.segment (grown c) s.sm.entries })
      (fun _ => rfl) rfl he).1
    exact (lookup_of_mapEntry (f := settled) (t := t) (fun _ => rfl) (congrArg SegmentMap.entries htsm) h2).1
  · exact (congrArg MigrationEngine.active hpme).trans hwa
  · exact (congrArg MigrationEngine.stack hpme).trans hws
  · rw [hp.counters _ (by decide) (by decide), hwstats, hvcount]
    exact bump_stats_same (hcount _ (by decide) (by decide))

/-- The OK of a promotion's chunk write that is not the last (R116). -/
theorem takeResult_notLast {s : State} {m : Move} {c : Nat} {r : OrderResult} {d : Dispatched} {e : Entry}
    (hmode : s.lu.mode = .online) (hmarker : s.lu.marker ≠ .resetEngine) (ha : s.me.active = some m) (hstop : m.stop = none)
    (hk : isFlush m.kind = false) (hneed : m.needed.isSome = true) (h0 : s.me.slot0 = some ⟨c, .writing⟩)
    (h1 : s.me.slot1 = none) (hd : (s.fps.outstanding.find? fun x => x.id == r.id) = some d)
    (ho : d.order.origin = .chunk m.number c) (hop : d.order.op = .write) (hok : r.outcome = 0)
    (he : lookup m.segment s = some e) (hem : e.marker = some m.number) (hleft : leftAfter m c ≠ 0)
    (hpre : m.preempt = false) (hq : s.me.queue = []) (hdirty : s.sm.dirty = []) :
    let t := takeResult .flash r s
    lookup m.segment t = some (grown c e) ∧ t.me.active = some { m with done := m.done ||| chunkBit c }
      ∧ t.me.stack = s.me.stack := by
  intro t
  obtain ⟨u, fr, ht, hpart, hme, hsm, -⟩ := takeResult_chunkWrite hmarker hd ho hop hok
  have hue : lookup m.segment u = some e := by
    unfold lookup
    rw [hsm]
    exact he
  have hv := chunkResult_notLast (hme ▸ ha) hk hstop hneed (hme ▸ h0) (hme ▸ h1) hue hem hleft
  generalize chunkResult m.number c .write true u = v at ht hv
  have hvmode : v.lu.mode = .online := (hv.mode.trans (congrArg (fun p => p.calm.base.mode) hpart)).trans hmode
  have hvmarker : v.lu.marker ≠ .resetEngine :=
    (hv.marker.trans (congrArg (fun p => p.calm.base.marker) hpart)) ▸ hmarker
  have hvme := hv.me
  rw [hme] at hvme
  have hvsm := hv.sm
  rw [hsm] at hvsm
  have hchecks : engineChecks v = v := engineChecks_settled hvmode hvmarker (.inl (by rw [hvsm]; exact hdirty))
    (congrArg MigrationEngine.active hvme) (by rw [hvme]; exact hq) hpre
  obtain ⟨-, hp⟩ := engineEvent_pumps hvmarker hchecks (by rw [hvmode]; decide)
  rw [← ht] at hp
  obtain ⟨a, b, hpme⟩ := hp.me
  refine ⟨(lookup_of_mapEntry (f := grown c) (t := t) (s := s) (fun _ => rfl) ?_ he).1, ?_, ?_⟩
  · exact congrArg SegmentMap.entries (hp.sm.trans hvsm)
  · exact (congrArg MigrationEngine.active hpme).trans (congrArg MigrationEngine.active hvme)
  · refine (congrArg MigrationEngine.stack hpme).trans ?_
    show v.me.stack = _
    rw [hvme]

/-! ### The bottom of the Move Stack abandoned (R13, R16, R121, R122) -/

theorem frameLeavesBound_served (f : Nat) (s : State) :
    Served { s with sm.frames := withFrameState f .trimming s.sm.frames } (frameLeavesBound f s) := by
  have hB := served_base { s with sm.frames := withFrameState f .trimming s.sm.frames }
  have hall : ∀ (os : List Order) (t : State), Served { s with sm.frames := withFrameState f .trimming s.sm.frames } t →
      Served { s with sm.frames := withFrameState f .trimming s.sm.frames } (os.foldl (fun t o => withdrawn o t) t) := by
    intro os
    induction os with
    | nil => exact fun _ h => h
    | cons o os ih => exact fun t h => ih _ (hB.withdrawn o h)
  have h1 := hB.dropFrameOrders f (hB.touch 0 (.refl _))
  unfold frameLeavesBound
  dsimp only
  split
  · exact hB.askTrim _ (hall _ _ h1)
  · exact hall _ _ h1

/-- No move that exists is a flush of a number. -/
def NoFlush (n : Byte) (s : State) : Prop :=
  holdsFlush n s.me.queue = false ∧ holdsFlush n s.me.stack = false ∧ holdsFlush n s.me.active.toList = false

theorem endOfEntry_noFlush {n : Byte} {s : State} (h : NoFlush n s) : endOfEntry (some n) s = s := by
  obtain ⟨hq, hs, ha⟩ := h
  unfold endOfEntry
  simp [hq, hs, ha]

/-- The removal of an INBOUND entry whose promotion is no longer there. -/
theorem removeEntry_inbound {g : Nat} {n : Byte} {s : State} {e : Entry} (he : lookup g s = some e) (hi : e.state = .inbound)
    (hm : e.marker = some n) (hn : NoFlush n s) :
    ∃ sm, Served { s with sm := sm } (removeEntry g s) ∧ sm.entries = s.sm.entries.filter fun x => x.segment != g := by
  have hend := endOfEntry_noFlush (s := offLists g { s with sm.entries := s.sm.entries.filter fun x => x.segment != g }) hn
  have hrem : removeEntry g s = frameLeavesBound e.frame
      (offLists g { s with sm.entries := s.sm.entries.filter fun x => x.segment != g }) := by
    unfold removeEntry
    rw [he]
    dsimp only
    rw [hi, hm, hend]
    rfl
  have h := frameLeavesBound_served e.frame (offLists g { s with sm.entries := s.sm.entries.filter fun x => x.segment != g })
  rw [← hrem] at h
  exact ⟨(removeEntry g s).sm, ⟨h.part, h.me, rfl, h.counters⟩, congrArg SegmentMap.entries h.sm⟩

theorem lookup_filter {g k : Nat} {s t : State} (ht : t.sm.entries = s.sm.entries.filter fun x => x.segment != g) (hk : k ≠ g) :
    lookup k t = lookup k s := by
  unfold lookup
  rw [ht, List.find?_filter]
  congr 1
  funext x
  by_cases hx : x.segment = k
  · simp [hx, hk]
  · simp [hx]

/-- What the abandonment of a move that is gone leaves: the moves, the other segments' entries, and all but the counters of
abandoned promotions and of notices. -/
structure AbandonLeaves (g : Nat) (s t : State) : Prop where
  part : enginePart t = enginePart s
  me : t.me = s.me
  entries : ∀ k, k ≠ g → lookup k t = lookup k s
  counters : ∀ j, j ≠ .promotionsAbandoned → j ≠ .noticesMerged → j ≠ .postsDeferred →
    t.stats[counterIndex j] = s.stats[counterIndex j]

theorem modifyEntry_leaves {g : Nat} {f : Entry → Entry} {s : State} (hf : ∀ e, (f e).segment = e.segment) :
    AbandonLeaves g s (modifyEntry g f s) where
  part := (enginePart_core (· = enginePart s)).modifyEntry _ _ rfl
  me := rfl
  entries := fun k hk => by
    rw [← entryAt_eq, ← entryAt_eq]
    exact (entryAt_mapEntry hf k s.sm.entries).trans (if_neg hk)
  counters := fun _ _ _ _ => rfl

theorem reportAbandoned_leaves {b : Move} {s : State} (hn : NoFlush b.number s) :
    AbandonLeaves b.segment s (reportAbandoned b .spill s) := by
  have hsame : AbandonLeaves b.segment s s := ⟨rfl, rfl, fun _ _ => rfl, fun _ _ _ _ => rfl⟩
  unfold reportAbandoned
  rw [if_neg (by decide)]
  split
  · have hprom : AbandonLeaves b.segment s (promotionAbandoned b.segment b.number s) := by
      unfold promotionAbandoned
      split
      · exact hsame
      · rename_i e hmk
        split
        · rename_i hi
          have hm : e.marker = some b.number := by simpa using (Option.filter_eq_some_iff.1 hmk).2
          obtain ⟨sm, h, hent⟩ := removeEntry_inbound (lookup_of_marked hmk) hi hm hn
          exact ⟨h.part, h.me, fun k hk => lookup_filter ((congrArg SegmentMap.entries h.sm).trans hent) hk,
            fun j _ h2 h3 => h.counters j h2 h3⟩
        · exact hsame
    exact ⟨(enginePart_bump _ _).trans hprom.part, (by rw [bump_me]; exact hprom.me), fun k hk => by
      unfold lookup
      rw [bump_sm]
      exact hprom.entries k hk, fun j h1 h2 h3 => (bump_stats_other h1.symm _).trans (hprom.counters j h1 h2 h3)⟩
  · split
    · dsimp only
      rw [if_neg (by decide)]
      unfold flushAbandoned
      split
      · split
        · have h := modifyEntry_leaves (g := b.segment) (s := s) (f := fun x => { x with
            state := .dirty, marker := none, flushFailures := min 3 (x.flushFailures + 0) }) fun _ => rfl
          exact ⟨h.part, h.me, h.entries, h.counters⟩
        · exact hsame
      · exact hsame
    · unfold flushDropped
      split
      · exact modifyEntry_leaves fun _ => rfl
      · exact hsame

/-! ### A promotion suspended by an URGENT move (R113, R120, R121) -/

/-- An active move as it is suspended. -/
def suspended (m : Move) : Move := { m with state := .suspended, preempt := false }

/-- What the suspension of the active move leaves. -/
structure SuspendLeaves (m u : Move) (s t : State) : Prop where
  part : enginePart t = enginePart s
  active : t.me.active = none
  queue : t.me.queue = [u]
  top : ∃ rest, t.me.stack = suspended m :: rest
  short : s.me.stack.length < 2 → t.me.stack = suspended m :: s.me.stack
  spills : ∀ a b, s.me.stack = [a, b] → t.me.stack = [suspended m, a] ∧ t.me.moveSpill = true
    ∧ t.stats[counterIndex .spills] = (bump .spills s).stats[counterIndex .spills]
  entry : lookup u.segment t = lookup u.segment s

theorem suspend_short {m u : Move} {s : State} (hq : s.me.queue = [u]) (hl : s.me.stack.length < 2) :
    SuspendLeaves m u s (suspend m s) := by
  have hs : suspend m s = { s with me.active := none, me.stack := suspended m :: s.me.stack } := by
    unfold suspend spillBottom
    refine if_neg ?_
    show ¬ 2 < (suspended m :: s.me.stack).length
    rw [List.length_cons]
    omega
  rw [hs]
  refine ⟨rfl, rfl, hq, ⟨_, rfl⟩, fun _ => rfl, fun a b hab => ?_, rfl⟩
  rw [hab] at hl
  exact absurd hl (by simp)

theorem suspend_spills {m u a b : Move} {s : State} (hq : s.me.queue = [u]) (hab : s.me.stack = [a, b])
    (hnum : b.number ≠ m.number ∧ b.number ≠ a.number ∧ b.number ≠ u.number) (hseg : u.segment ≠ b.segment) :
    SuspendLeaves m u s (suspend m s) := by
  obtain ⟨x, hx⟩ : ∃ x : State, x = bump .spills (occur .moveSpill b.segment
      { s with me.active := none, me.stack := [suspended m, a, b], me.moveSpill := true }) := ⟨_, rfl⟩
  have hxpart : enginePart x = enginePart s := by
    rw [hx, enginePart_bump, enginePart_occur]
    rfl
  have hxme : x.me = { s.me with active := none, stack := [suspended m, a, b], moveSpill := true } := by
    rw [hx, bump_me, occur_me]
  have hxsm : x.sm = s.sm := by
    rw [hx, bump_sm]
    exact congrArg WorkPart.sm (occur_work _ _ _)
  have hxcount : x.stats[counterIndex .spills] = (bump .spills s).stats[counterIndex .spills] := by
    rw [hx]
    exact bump_stats_same ((occur_stats (by decide) (by decide) _ _ _).trans rfl)
  have hs : suspend m s = reportAbandoned b .spill (removeMove b.number x) := by
    rw [hx]
    unfold suspend spillBottom
    rw [hab]
    rfl
  have hr := removeMove_moved b.number x
  generalize removeMove b.number x = r at hs hr
  have hrme : r.me = { s.me with active := none, stack := [suspended m, a], moveSpill := true } := by
    rw [hr.me, hxme]
    simp [hq, suspended, hnum.1.symm, hnum.2.1.symm, hnum.2.2.symm]
  have hno : NoFlush b.number r := by
    unfold NoFlush holdsFlush
    rw [hrme]
    simp [hq, suspended, hnum.1.symm, hnum.2.1.symm, hnum.2.2.symm]
  have hl := reportAbandoned_leaves hno
  rw [← hs] at hl
  refine ⟨hl.part.trans (hr.part.trans hxpart), ?_, ?_, ⟨[a], ?_⟩, fun h => ?_, fun a' b' hab' => ?_, ?_⟩
  · rw [hl.me, hrme]
  · rw [hl.me, hrme]
    exact hq
  · rw [hl.me, hrme]
  · rw [hab] at h
    exact absurd h (by simp)
  · rw [hab] at hab'
    cases hab'
    refine ⟨by rw [hl.me, hrme], by rw [hl.me, hrme], ?_⟩
    rw [hl.counters _ (by decide) (by decide) (by decide), hr.counters _ (fun h => h) (by decide) (by decide), hxcount]
  · rw [hl.entries _ hseg]
    unfold lookup
    rw [hr.sm, hxsm]

theorem suspend_leaves {m u : Move} {s : State} (hq : s.me.queue = [u]) (hl : s.me.stack.length ≤ 2)
    (hnum : ((m :: s.me.stack ++ [u]).map Move.number).Nodup) (hseg : ((m :: s.me.stack ++ [u]).map Move.segment).Nodup) :
    SuspendLeaves m u s (suspend m s) := by
  by_cases h : s.me.stack.length < 2
  · exact suspend_short hq h
  · obtain ⟨a, b, hab⟩ := List.length_eq_two.1 (show s.me.stack.length = 2 by omega)
    rw [hab] at hnum hseg
    simp at hnum hseg
    exact suspend_spills hq hab ⟨by grind, by grind, by grind⟩ (by grind)

/-- The tests of an event where a lone URGENT move preempts the active one. -/
theorem engineChecks_preempts {m u : Move} {v : Entry} {s : State} (hm : s.lu.mode = .online) (hr : s.lu.marker ≠ .resetEngine)
    (ha : s.me.active = some m) (h0 : s.me.slot0 = none) (h1 : s.me.slot1 = none) (hq : s.me.queue = [u])
    (hu : u.kind = .urgent) (hk : isFlush m.kind = false) (hp : s.pm.state = .ready) (hf : s.fps.level < 4)
    (hpl : s.pps.level < 4) (hv : lookup u.segment s = some v) (hs : SuspendLeaves m u s (suspend m s)) :
    engineChecks s = activateFlush u v (suspend m s) := by
  have hlevel : levelOf m.kind < levelOf u.kind := by
    rcases isFlush_eq_false.1 hk with h | h <;> rw [h, hu] <;> decide
  have helig : ∀ t : State, enginePart t = enginePart s → eligible u t = true := fun t ht => by
    rw [eligible_iff, moveLevel_eq, hu]
    exact ⟨(congrArg (fun p => p.calm.base.mode) ht).trans hm, (congrArg EnginePart.platter ht).trans hp,
      lt_of_eq_of_lt (congrArg EnginePart.flashLevel ht) hf, lt_of_eq_of_lt (congrArg EnginePart.platterLevel ht) hpl, by simp⟩
  have hpre : preemptTest s = suspend m s := by
    unfold preemptTest
    rw [ha]
    dsimp only
    rw [if_pos (by simp [hq, helig s rfl, hlevel]), if_neg (by simp [chunkInFlight, h0, h1])]
  have hfirst : firstEligible (suspend m s) = some u := by
    unfold firstEligible
    rw [hs.queue]
    simp [helig _ hs.part]
  obtain ⟨rest, htop⟩ := hs.top
  have hexists : levelExists 4 s = true := by
    unfold levelExists allMoves
    simp [hq, hu, levelOf]
  rw [engineChecks_online hm hr (.inr (.inl hexists)), hpre, hs.queue]
  show arbiter 2 _ = _
  unfold arbiter
  rw [hs.active, htop, hfirst, List.head?_cons]
  dsimp only
  rw [if_neg (by simpa [suspended] using hlevel), hs.entry, hv, hu]
  rfl

/-- The OK of a promotion's chunk write that is not the last, with an eligible URGENT move in the queue (R113, R120, R121). -/
theorem takeResult_preempts {s : State} {m u : Move} {c : Nat} {r : OrderResult} {d : Dispatched} {e v : Entry}
    (hmode : s.lu.mode = .online) (hmarker : s.lu.marker ≠ .resetEngine) (ha : s.me.active = some m) (hstop : m.stop = none)
    (hk : isFlush m.kind = false) (hneed : m.needed.isSome = true) (hmoves : movesExact s)
    (h0 : s.me.slot0 = some ⟨c, .writing⟩) (h1 : s.me.slot1 = none)
    (hd : (s.fps.outstanding.find? fun x => x.id == r.id) = some d) (ho : d.order.origin = .chunk m.number c)
    (hop : d.order.op = .write) (hok : r.outcome = 0) (he : lookup m.segment s = some e) (hem : e.marker = some m.number)
    (hleft : leftAfter m c ≠ 0) (hq : s.me.queue = [u]) (hu : u.kind = .urgent) (hp : s.pm.state = .ready)
    (hf : s.fps.level < 4) (hpl : s.pps.level < 4) (hv : lookup u.segment s = some v) :
    let t := takeResult .flash r s
    let top := suspended { m with done := m.done ||| chunkBit c }
    t.me.queue = []
      ∧ t.me.active = some { u with state := .active, frame := some v.frame, firstChunk := lowestChunk (validSet v) }
      ∧ (s.me.stack.length < 2 → t.me.stack = top :: s.me.stack)
      ∧ ∀ a b, s.me.stack = [a, b] → t.me.stack = [top, a] ∧ t.me.moveSpill = true
          ∧ t.stats[counterIndex .spills] = (bump .spills s).stats[counterIndex .spills] := by
  intro t top
  obtain ⟨x, fr, ht, hpart, hme, hsm, hcount⟩ := takeResult_chunkWrite hmarker hd ho hop hok
  have hxe : lookup m.segment x = some e := by
    unfold lookup
    rw [hsm]
    exact he
  have hw := chunkResult_notLast (hme ▸ ha) hk hstop hneed (hme ▸ h0) (hme ▸ h1) hxe hem hleft
  generalize chunkResult m.number c .write true x = w at ht hw
  have hwme := hw.me
  rw [hme] at hwme
  have hwsm := hw.sm
  rw [hsm] at hwsm
  have hwpart := hw.part.trans hpart
  have hwmode : w.lu.mode = .online := (congrArg (fun p => p.calm.base.mode) hwpart).trans hmode
  have hwmarker : w.lu.marker ≠ .resetEngine := (congrArg (fun p => p.calm.base.marker) hwpart : w.lu.marker = s.lu.marker) ▸ hmarker
  have hwq : w.me.queue = [u] := by rw [hwme]; exact hq
  have hwstack : w.me.stack = s.me.stack := by rw [hwme]
  have huseg : u.segment ≠ m.segment := ((movesExact_apart hmoves ha).2 u (by rw [hq]; simp)).2
  have hwv : lookup u.segment w = some v :=
    ((lookup_of_mapEntry (f := grown c) (t := w) (s := s) (fun _ => rfl) (congrArg SegmentMap.entries hwsm) he).2 _ huseg).trans hv
  obtain ⟨hnum, hseg, -, -, -, hlen, -⟩ := hmoves
  have hall : allMoves s = m :: s.me.stack ++ [u] := by
    unfold allMoves
    rw [ha, hq]
    rfl
  rw [hall] at hnum hseg
  have hs := suspend_leaves (m := { m with done := m.done ||| chunkBit c }) (s := w) hwq (hwstack ▸ hlen)
    (by rw [hwstack]; exact hnum) (by rw [hwstack]; exact hseg)
  have hchecks := engineChecks_preempts hwmode hwmarker (congrArg MigrationEngine.active hwme)
    (congrArg MigrationEngine.slot0 hwme) (congrArg MigrationEngine.slot1 hwme) hwq hu hk
    ((congrArg EnginePart.platter hwpart).trans hp) (lt_of_eq_of_lt (congrArg EnginePart.flashLevel hwpart) hf)
    (lt_of_eq_of_lt (congrArg EnginePart.platterLevel hwpart) hpl) hwv hs
  have hymode : (activateFlush u v (suspend { m with done := m.done ||| chunkBit c } w)).lu.mode = .online :=
    (congrArg (fun p => p.calm.base.mode) hs.part).trans hwmode
  obtain ⟨-, hpump⟩ := engineEvent_pumps hwmarker hchecks (by rw [hymode]; decide)
  rw [← ht] at hpump
  obtain ⟨a, b, hpme⟩ := hpump.me
  have hstack : t.me.stack = (suspend { m with done := m.done ||| chunkBit c } w).me.stack :=
    (congrArg MigrationEngine.stack hpme).trans rfl
  refine ⟨(congrArg MigrationEngine.queue hpme).trans ?_, congrArg MigrationEngine.active hpme, fun h => ?_, fun a b hab => ?_⟩
  · show (suspend _ w).me.queue.filter _ = _
    rw [hs.queue]
    simp
  · rw [hstack, hs.short (hwstack ▸ h), hwstack]
  · obtain ⟨h1, h2, h3⟩ := hs.spills a b (hwstack.trans hab)
    refine ⟨hstack.trans h1, (congrArg MigrationEngine.moveSpill hpme).trans h2, ?_⟩
    rw [hpump.counters _ (by decide) (by decide)]
    refine h3.trans (bump_stats_same ?_)
    rw [hw.counters _ (fun h => h) (by decide) (by decide)]
    exact hcount _ (by decide) (by decide)

end Sys2Proof.Machine

/-! ## Moves: the start of a flush at the dispatch of its first read, and the statement of chapter 5 -/

namespace Sys2Proof.Machine

theorem arbiterChoice_lone {p : Port} {s : State} {o : Order} (hf : (sched p s).foreground = []) (hb : (sched p s).background = [o])
    (ho : orderEligible p o s = true) : arbiterChoice p s = .background 0 := by
  have hold : oldestEligible p s = some 0 := by
    rw [oldestEligible_iff, hb]
    exact ⟨⟨o, rfl, ho⟩, fun j _ hj => absurd hj (Nat.not_lt_zero j)⟩
  unfold arbiterChoice
  rw [hf, hold]

/-- The dispatch of a lone eligible chunk order. -/
theorem dispatchOne_chunk {p : Port} {s : State} {o : Order} {n : Byte} {c : Nat} (hm : mayDispatch p s = true)
    (hf : (sched p s).foreground = []) (hb : (sched p s).background = [o]) (ho : orderEligible p o s = true)
    (hc : o.origin = .chunk n c) : dispatchOne p s = dispatchBackground p 0 s := by
  unfold dispatchOne dispatchLoop
  rw [hm, arbiterChoice_lone hf hb ho, hb]
  simp [droppedAtDispatch, hc]

/-- A read that goes out on the Flash Port, as the map and the engine see it. -/
theorem readSent {s : State} {o : Order} {f : Nat} (hop : o.op = .read) (ha : o.address = .frame f) (bg : List Order) :
    let d := dispatchedOrder .flash o s
    let u := reportDispatch .flash d (sendOrder .flash d (joinOutstanding .flash d 0
      (setSched .flash { s.fps with background := bg } (takeLabel d s))))
    enginePart u = { enginePart s with flashOutstanding := s.fps.outstanding ++ [d] } ∧ u.me = s.me
      ∧ u.sm = { s.sm with frames := withInFlight f (· + 1) s.sm.frames } := by
  intro d u
  have hlabel : takeLabel d s = s := by
    have hnone : (dispatchedOrder .flash o s).label = none := by
      show orderLabel o s = none
      unfold orderLabel
      rw [hop]
      split <;> simp_all
    unfold takeLabel
    rw [hnone]
    rfl
  have hu : u = frameDispatched f (sendOrder .flash d (joinOutstanding .flash d 0
      (setSched .flash { s.fps with background := bg } s))) := by
    show reportDispatch _ _ _ = _
    unfold reportDispatch orderFrame
    rw [show d.order.address = .frame f from ha, hlabel]
  rw [hu]
  exact ⟨rfl, rfl, rfl⟩

/-- An entry as its flush starts (R15). -/
def flushingEntry (e : Entry) : Entry := { e with state := .flushing }

/-- A move as its flush starts (R117). -/
def flushBegun (m : Move) (e : Entry) : Move :=
  { m with
    captured := some e.generation
    parts := some (validSet e)
    started := true
    needed := some (chunksOf (validSet e)) }

/-- The flush start of the active move on its DIRTY entry (R15, R117). -/
theorem flushStarts_moved {s : State} {m : Move} {e : Entry} (ha : s.me.active = some m) (hk : isFlush m.kind = true)
    (hs : m.started = false) (he : lookup m.segment s = some e) (hm : e.marker = some m.number) (hd : e.state = .dirty) :
    Moved (fun _ => False) s (flushStarts m.number s) { s.me with active := some (flushBegun m e) }
      { s.sm with
        entries := mapEntry m.segment flushingEntry s.sm.entries
        reclaim := s.sm.reclaim.filter (fun x => x != m.segment)
        dirty := s.sm.dirty.filter fun x => x != m.segment } := by
  have hstart : flushStarts m.number s = modifyActive (fun m => { m with
        captured := some e.generation, parts := some (validSet e), started := true, needed := some (chunksOf (validSet e)) })
      (offLists m.segment (modifyEntry m.segment flushingEntry s)) := by
    unfold flushStarts flushStart
    rw [ha]
    dsimp only
    rw [if_pos (by simp [hk, hs]), marked_of_lookup he hm]
    dsimp only
    rw [if_pos hd]
    rfl
  have hcore := enginePart_core (· = enginePart s)
  rw [hstart]
  refine ⟨hcore.modifyActive _ (hcore.offLists _ (hcore.modifyEntry _ _ rfl)), ?_, rfl, fun j _ _ _ => rfl⟩
  show ({ s.me with active := s.me.active.map _ } : MigrationEngine) = _
  rw [ha]
  rfl

/-- The dispatch of a flush's first chunk read (R15, R117). -/
theorem dispatchOne_flushStart {s : State} {m : Move} {c f : Nat} {o : Order} {e : Entry} (hmode : s.lu.mode = .online)
    (hmarker : s.lu.marker ≠ .resetEngine) (ha : s.me.active = some m) (hk : m.kind = .flush ∨ m.kind = .urgent)
    (hs : m.started = false) (hpre : m.preempt = false) (hq : s.me.queue = []) (hurgent : s.me.urgent = false)
    (hfg : s.fps.foreground = []) (hbg : s.fps.background = [o]) (hroom : s.fps.outstanding.length < 8)
    (ho : o.origin = .chunk m.number c) (hop : o.op = .read) (haddr : o.address = .frame f) (hlevel : o.level = some (moveLevel m))
    (hport : s.fps.level < moveLevel m) (he : lookup m.segment s = some e) (hem : e.marker = some m.number)
    (hed : e.state = .dirty) :
    let t := dispatchOne .flash s
    lookup m.segment t = some { e with state := .flushing } ∧ t.sm.dirty = (s.sm.dirty.filter fun x => x != m.segment)
      ∧ t.sm.dirtyCount = s.sm.dirtyCount ∧ t.me.active = some (flushBegun m e)
      ∧ t.fps.outstanding = s.fps.outstanding ++ [dispatchedOrder .flash o s] := by
  intro t
  have hmay : mayDispatch .flash s = true := (mayDispatch_iff .flash s).2 ⟨hmarker, nofun, hroom⟩
  have helig : orderEligible .flash o s = true := by
    rw [orderEligible_iff, ho]
    exact ⟨fun _ _ _ => ⟨_, hlevel, hport⟩, nofun⟩
  have hk' : isFlush m.kind = true := by rcases hk with h | h <;> rw [h] <;> rfl
  have ht : t = dispatchBackground .flash 0 s := dispatchOne_chunk hmay hfg hbg helig ho
  have hb : (sched .flash s).background = [o] := hbg
  unfold dispatchBackground at ht
  rw [hb] at ht
  change t = engineEvent (giveRoom (reportFlushStart (dispatchedOrder .flash o s) (reportDispatch .flash (dispatchedOrder .flash o s)
    (sendOrder .flash (dispatchedOrder .flash o s) (joinOutstanding .flash (dispatchedOrder .flash o s) 0 (setSched .flash
      { sched .flash (takeLabel (dispatchedOrder .flash o s) s) with
        background := (sched .flash (takeLabel (dispatchedOrder .flash o s) s)).background.eraseIdx 0 }
      (takeLabel (dispatchedOrder .flash o s) s))))))) at ht
  rw [sched_takeLabel, hb] at ht
  obtain ⟨hupart, hume, husm⟩ := readSent (s := s) hop haddr []
  generalize hu : reportDispatch .flash (dispatchedOrder .flash o s) (sendOrder .flash (dispatchedOrder .flash o s)
    (joinOutstanding .flash (dispatchedOrder .flash o s) 0 (setSched .flash { s.fps with background := [] }
      (takeLabel (dispatchedOrder .flash o s) s)))) = u at hupart hume husm
  change t = engineEvent (giveRoom (reportFlushStart (dispatchedOrder .flash o s) (reportDispatch .flash (dispatchedOrder .flash o s)
    (sendOrder .flash (dispatchedOrder .flash o s) (joinOutstanding .flash (dispatchedOrder .flash o s) 0 (setSched .flash
      { s.fps with background := [] } (takeLabel (dispatchedOrder .flash o s) s))))))) at ht
  rw [hu] at ht
  have hstart : reportFlushStart (dispatchedOrder .flash o s) u = flushStarts m.number u := by
    unfold reportFlushStart
    rw [show (dispatchedOrder .flash o s).order.origin = .chunk m.number c from ho,
      show (dispatchedOrder .flash o s).order.op = .read from hop]
  rw [hstart] at ht
  have hue : lookup m.segment u = some e := by
    unfold lookup
    rw [husm]
    exact he
  have hv := flushStarts_moved (hume ▸ ha) hk' hs hue hem hed
  generalize flushStarts m.number u = v at ht hv
  have hw := (served_base v).giveRoom (.refl v)
  generalize giveRoom v = w at ht hw
  have hwme : w.me = { s.me with active := some (flushBegun m e) } := by rw [hw.me, hv.me, hume]
  have hwsm := hw.sm.trans hv.sm
  rw [husm] at hwsm
  have hwpart : enginePart w = { enginePart s with flashOutstanding := s.fps.outstanding ++ [dispatchedOrder .flash o s] } := by
    rw [hw.part, hv.part, hupart]
  have hwmode : w.lu.mode = .online := (congrArg (fun p => p.calm.base.mode) hwpart).trans hmode
  have hwmarker : w.lu.marker ≠ .resetEngine := (congrArg (fun p => p.calm.base.marker) hwpart : w.lu.marker = s.lu.marker) ▸ hmarker
  have hrequests : w.sm.dirty = [] ∨ levelExists 4 w = true ∨ (levelExists 2 w = true ∧ w.me.urgent = false) := by
    refine .inr (hk.symm.imp (fun h => ?_) fun h => ⟨?_, ?_⟩)
    · unfold levelExists allMoves
      rw [hwme]
      simp [flushBegun, h, levelOf]
    · unfold levelExists allMoves
      rw [hwme]
      simp [flushBegun, h, levelOf]
    · rw [hwme]
      exact hurgent
  have hchecks : engineChecks w = w := engineChecks_settled hwmode hwmarker hrequests (congrArg MigrationEngine.active hwme)
    (by rw [hwme]; exact hq) hpre
  obtain ⟨-, hp⟩ := engineEvent_pumps hwmarker hchecks (by rw [hwmode]; decide)
  rw [← ht] at hp
  obtain ⟨a, b, hpme⟩ := hp.me
  have htsm := hp.sm.trans hwsm
  refine ⟨?_, (congrArg SegmentMap.dirty htsm).trans rfl, (congrArg SegmentMap.dirtyCount htsm).trans rfl, ?_, ?_⟩
  · have hentries : t.sm.entries = mapEntry m.segment flushingEntry s.sm.entries :=
      congrArg SegmentMap.entries htsm
    exact (lookup_of_mapEntry (f := flushingEntry) (fun _ => rfl) hentries he).1
  · exact (congrArg MigrationEngine.active hpme).trans (congrArg MigrationEngine.active hwme)
  · exact (congrArg EnginePart.flashOutstanding hp.part).trans (congrArg EnginePart.flashOutstanding hwpart)

/-- Settles O45. -/
theorem moveEligibilityAndOrder : Obligations.MoveEligibilityAndOrder := by
  unfold Obligations.MoveEligibilityAndOrder
  intro promotion
  refine ⟨fun m s => ?_, fun m q hq => enqueue_split m hq, fun s m c hmode hmarker ha hstop hc => ?_⟩
  · rw [eligible_iff, writePending_iff]
  intro rest last chunk
  refine ⟨fun r d f hk hpre hyield hneed hframe hq hdirty h0 h1 hd ho hop hok hroom hin => ?_,
    fun r d e hk hneed hmoves h0 h1 hd ho hop hok he hem hei => ?_,
    fun o e f hk hs hpre hq hurgent hfg hbg hroom ho hop haddr hlevel hport he hem hed => ?_⟩
  · have h := takeResult_chunkRead hmode hmarker ha hstop (isFlush_eq_false.2 hk) hpre hyield hneed hq hdirty h0 h1 hd ho hop hok
      hroom hin
    have hwrite : chunkOrder m c 0 .flash .write (chunkMask c) = chunk c 0 .flash .write (.frame f) := by
      unfold chunkOrder
      rw [hframe, ← moveLevel_eq]
      rfl
    have hread : ∀ x, chunkOrder m x 1 .platter .read (chunkMask x) = chunk x 1 .platter .read (.platter m.segment) := fun x => by
      unfold chunkOrder
      rw [← moveLevel_eq]
    rw [hwrite] at h
    simp only [hread] at h
    exact ⟨_, rfl, h⟩
  · intro written done
    refine ⟨fun hlast hpre hq hdirty => ?_, fun hlast hq hdirty => ?_, fun u v hlast hq hu hp hf hpl hv => ?_⟩
    · exact ⟨_, rfl, takeResult_notLast hmode hmarker ha hstop (isFlush_eq_false.2 hk) hneed h0 h1 hd ho hop hok he hem hlast hpre hq
        hdirty⟩
    · exact ⟨_, rfl, takeResult_last hmode hmarker ha hstop hc (isFlush_eq_false.2 hk) hneed hmoves h0 h1 hd ho hop hok he hem hei
        hlast hq hdirty⟩
    · exact ⟨_, rfl, takeResult_preempts hmode hmarker ha hstop (isFlush_eq_false.2 hk) hneed hmoves h0 h1 hd ho hop hok he hem hlast
        hq hu hp hf hpl hv⟩
  · obtain ⟨h1, h2, h3, h4, h5⟩ := dispatchOne_flushStart hmode hmarker ha hk hs hpre hq hurgent hfg hbg hroom ho hop haddr hlevel
      hport he hem hed
    exact ⟨_, rfl, h1, h2, h3, h4, _, h5, rfl⟩

end Sys2Proof.Machine

/-! ## Routing: the heat update, the order placed, and the pass over one piece -/

namespace Sys2Proof.Machine

/-! ### The heat update (R35 to R41) reads nothing of the Command Tracker -/

theorem heatLimitReached_hu (g : Nat) (s : State) : (heatLimitReached g s).hu = { s.hu with heatLimit := true } :=
  congrArg WorkPart.hu (occur_work _ _ _)

theorem coldest_withCt (x : CommandTracker) (s : State) (cs : List Candidate) :
    coldest { s with ct := x } cs = coldest s cs := by
  induction cs with
  | nil => rfl
  | cons c cs ih =>
    unfold coldest
    rw [ih]
    rfl

theorem heatUpdate_withCt (g : Nat) (c : Command) (boost : Nat) (x : CommandTracker) (s : State) :
    (heatUpdate g c boost { s with ct := x }).1 = (heatUpdate g c boost s).1
      ∧ (heatUpdate g c boost { s with ct := x }).2.hu = (heatUpdate g c boost s).2.hu := by
  unfold heatUpdate
  change ((match lookup g s with | some e => _ | none => _) : Nat × State).1 = _
    ∧ ((match lookup g s with | some e => _ | none => _) : Nat × State).2.hu = _
  cases lookup g s with
  | some e =>
    refine ⟨rfl, ?_⟩
    dsimp only
    unfold heatPresent
    change (if saturates e.heat _ s then _ else _ : State).hu = _
    dsimp only
    split
    · rw [heatLimitReached_hu, heatLimitReached_hu]
      rfl
    · rfl
  | none =>
    dsimp only
    unfold heatAbsent
    change ((match candidateOf g s with | some r => _ | none => _) : Nat × State).1 = _
      ∧ ((match candidateOf g s with | some r => _ | none => _) : Nat × State).2.hu = _
    cases candidateOf g s with
    | some r =>
      refine ⟨rfl, ?_⟩
      change (if saturates r.heat _ s then _ else _ : State).hu = _
      dsimp only
      split
      · rw [heatLimitReached_hu, heatLimitReached_hu]
        rfl
      · rfl
    | none =>
      dsimp only
      split
      · exact ⟨rfl, rfl⟩
      · change ((match emptyWay (candidateSet g) s with | some p => _ | none => _) : Nat × State).1 = _
          ∧ ((match emptyWay (candidateSet g) s with | some p => _ | none => _) : Nat × State).2.hu = _
        cases emptyWay (candidateSet g) s with
        | some p => exact ⟨rfl, rfl⟩
        | none =>
          dsimp only
          rw [coldest_withCt]
          change ((match coldest s (candidatesOf (candidateSet g) s) with | some v => _ | none => _) : Nat × State).1 = _
            ∧ ((match coldest s (candidatesOf (candidateSet g) s) with | some v => _ | none => _) : Nat × State).2.hu = _
          cases coldest s (candidatesOf (candidateSet g) s) with
          | none => exact ⟨rfl, rfl⟩
          | some v =>
            dsimp only
            change ((if decayedHeat v.heat s ≤ _ then _ else _) : Nat × State).1 = _
              ∧ ((if decayedHeat v.heat s ≤ _ then _ else _) : Nat × State).2.hu = _
            split
            · exact ⟨rfl, rfl⟩
            · refine ⟨rfl, ?_⟩
              show (bump .candidateDrops _).hu = (bump .candidateDrops _).hu
              rw [bump_hu, bump_hu]

/-! ### What the heat update leaves -/

/-- What a heat update leaves of a state beside the Heat Unit and the map. -/
structure HeatLeaves (s t : State) (sm : SegmentMap) : Prop where
  work : workPart t = { workPart s with hu := t.hu, sm := sm }
  ct : t.ct = s.ct
  pm : t.pm = s.pm
  epoch : t.hu.epoch = s.hu.epoch
  counters : ∀ j, j ≠ .candidateDrops → j ≠ .noticesMerged → j ≠ .postsDeferred →
    t.stats[counterIndex j] = s.stats[counterIndex j]

theorem occur_leaves {s u : State} {sm : SegmentMap} (k : NoticeKind) (a : Nat) (h : HeatLeaves s u sm) :
    HeatLeaves s (occur k a u) sm := by
  have hw := occur_work k a u
  have hhu : (occur k a u).hu = u.hu := congrArg WorkPart.hu hw
  refine ⟨?_, (occur_ct k a u).trans h.ct, (occur_pm k a u).trans h.pm, hhu ▸ h.epoch,
    fun j h1 h2 h3 => (occur_stats h2 h3 k a u).trans (h.counters j h1 h2 h3)⟩
  rw [hw, hhu, h.work]

theorem heatUpdate_absent {g : Nat} {c : Command} {boost : Nat} {s : State} (h : lookup g s = none) :
    HeatLeaves s (heatUpdate g c boost s).2 s.sm := by
  have hstore : ∀ r, HeatLeaves s (storeCandidate r s) s.sm := fun r => ⟨rfl, rfl, rfl, rfl, fun _ _ _ _ => rfl⟩
  have hsame : HeatLeaves s s s.sm := ⟨rfl, rfl, rfl, rfl, fun _ _ _ _ => rfl⟩
  unfold heatUpdate
  rw [h]
  dsimp only
  unfold heatAbsent
  split
  · rename_i r _
    dsimp only
    split
    · exact occur_leaves _ _ ⟨rfl, rfl, rfl, rfl, fun _ _ _ _ => rfl⟩
    · exact hstore _
  · split
    · exact hsame
    · dsimp only
      split
      · exact hstore _
      · split
        · split
          · exact hstore _
          · exact ⟨by rw [bump_work, show (bump .candidateDrops s).hu = s.hu by rw [bump_hu]]; rfl, bump_ct _ s, bump_pm _ s,
              by rw [bump_hu], fun j h1 _ _ => bump_stats_other h1.symm s⟩
        · exact hsame

theorem heatUpdate_present {g : Nat} {c : Command} {boost : Nat} {s : State} {e : Entry} (h : lookup g s = some e) :
    HeatLeaves s (heatUpdate g c boost s).2 { s.sm with
        entries := mapEntry g (fun x => { x with heat := updatedRec e.heat (contribution c boost) s }) s.sm.entries }
      ∧ (heatUpdate g c boost s).2.hu.candidates = s.hu.candidates := by
  have hg : e.segment = g := by simpa using List.find?_some h
  unfold heatUpdate
  rw [h]
  dsimp only
  unfold heatPresent heatLimitReached
  dsimp only
  rw [hg]
  split
  · refine ⟨occur_leaves _ _ ⟨rfl, rfl, rfl, rfl, fun _ _ _ _ => rfl⟩, ?_⟩
    exact congrArg (fun w => w.hu.candidates) (occur_work _ _ _)
  · exact ⟨⟨rfl, rfl, rfl, rfl, fun _ _ _ _ => rfl⟩, rfl⟩

end Sys2Proof.Machine

/-! ## Routing: the pass over one piece -/

namespace Sys2Proof.Machine

/-! ### The pass over one WAITING piece -/

theorem exec_routingPass {s : State} (hd : s.ct.passDue = true) (hm : s.lu.mode ≠ .saving) :
    exec .routingPass s = .next (routingPass s) := by
  have hp : passMade s = true := by simp [passMade, hd, hm]
  exact congrArg Host.Outcome.next (if_pos hp)

/-- The state in which a pass begins: the call for it is answered. -/
def passBegun (s : State) : State := { s with ct.passDue := false }

/-- The attempt of the one piece of a command. -/
def attemptOf (tag : Fin 32) (c : Command) (p : Piece) (s : State) : Attempt := ⟨tag, c, p, evaluate p.segment s⟩

/-- A pass over one WAITING piece is one attempt and one event of the Migration Engine. -/
theorem routingPass_single {s : State} {tag : Fin 32} {c : Command} {p : Piece} (ha : s.ct.arrival = [tag])
    (hc : commandOf tag s = some c) (hp : c.pieces = [p]) (hw : p.state = .waiting .route) :
    routingPass s = engineEvent (attemptRoute (attemptOf tag c p s) ⟨false, false⟩ (passBegun s)).2 := by
  have hc' : commandOf tag (passBegun s) = some c := hc
  have hpiece : pieceOf tag p.segment (passBegun s) = some p := by simp [pieceOf, hc', hp]
  have htry : ∀ b, tryPiece tag p.segment (b, passBegun s)
      = ((attemptRoute (attemptOf tag c p s) b (passBegun s)).1,
        engineEvent (attemptRoute (attemptOf tag c p s) b (passBegun s)).2) := fun b => by
    unfold tryPiece
    rw [hc', hpiece]
    dsimp only
    rw [hw]
    rfl
  unfold routingPass
  rw [ha]
  show (tryCommand (⟨false, false⟩, passBegun s) tag).2 = _
  unfold tryCommand
  rw [hc']
  dsimp only
  rw [hp]
  show (tryPiece tag p.segment (⟨false, false⟩, passBegun s)).2 = _
  rw [htry]

/-! ### An event of the engine with nothing to do -/

theorem engineEvent_quiet {s : State} (h : EngineIdle s) (hu : s.me.urgent = false) (hy : noYieldHeld s) : engineEvent s = s := by
  have hcheck : (if engineTests s then urgentCheck s else s) = s := by rw [urgentCheck_not_urgent hu, ite_self]
  rw [engineEvent_idle (by rw [hcheck]; exact h), hcheck, releaseYields_none hy, ite_self]

/-- No move and no dirty entry: an event of the engine changes nothing, READY or not. -/
theorem engineEvent_empty {s : State} (ha : s.me.active = none) (hs : s.me.stack = []) (hq : s.me.queue = [])
    (hd : s.sm.dirty = []) (hy : noYieldHeld s) : engineEvent s = s := by
  have harbiter : arbiter (s.me.queue.length + 1) s = s := by
    unfold arbiter
    rw [ha, hs, firstEligible_empty hq]
    rfl
  have hchecks : engineChecks s = s := by
    unfold engineChecks
    rw [urgentCheck_idle (.inl hd), flushCheck_idle (.inl hd)]
    split
    · dsimp only
      rw [preemptTest_none ha, harbiter, ite_self]
    · rfl
  unfold engineEvent
  rw [hchecks, pumpChunks_none ha, pauseTest_none ha, releaseYields_none hy, ite_self]

/-! ### A piece issued, and its order placed (R81) -/

theorem commandOf_of_slots {s t : State} (h : t.ct.slots = s.ct.slots) (tag : Fin 32) : commandOf tag t = commandOf tag s := by
  unfold commandOf
  rw [h]

theorem commandOf_modifyPiece {tag : Fin 32} {s : State} {c : Command} {p : Piece} (hc : commandOf tag s = some c)
    (hp : c.pieces = [p]) (f : Piece → Piece) :
    commandOf tag (modifyPiece tag p.segment f s) = some { c with pieces := [f p] } := by
  unfold modifyPiece
  rw [commandOf_modifyCommand, hc]
  simp [mapPiece, hp]

theorem useNo_modifyPiece (tag : Fin 32) (g : Nat) (f : Piece → Piece) (s : State) :
    (modifyPiece tag g f s).ct.slots[tag].useNo = s.ct.slots[tag].useNo := by
  show (s.ct.slots.set tag.val _)[tag.val].useNo = _
  rw [Vector.getElem_set_self]

theorem noYieldHeld_modifyPiece {tag : Fin 32} {g : Nat} {f : Piece → Piece} {s : State} (h : noYieldHeld s)
    (hf : ∀ p, (f p).state ≠ .held true) : noYieldHeld (modifyPiece tag g f s) := by
  intro t x hx q hq
  by_cases ht : t = tag
  · subst ht
    unfold modifyPiece at hx
    rw [commandOf_modifyCommand] at hx
    obtain ⟨y, hy, rfl⟩ := Option.map_eq_some_iff.1 hx
    obtain ⟨p, hp, rfl⟩ := List.mem_map.1 hq
    split
    · exact hf p
    · exact h t y hy p hp
  · unfold modifyPiece at hx
    rw [commandOf_modifyCommand_other ht] at hx
    exact h t x hx q hq

theorem noYieldHeld_of_slots {s t : State} (h : noYieldHeld s) (hs : t.ct.slots = s.ct.slots) : noYieldHeld t := by
  intro tag c hc
  rw [commandOf_of_slots hs] at hc
  exact h tag c hc

/-- The Foreground order of a part of the piece tried. -/
def partOrder (a : Attempt) (i : Nat) (part : OrderPart) (address : Address) (s : State) : Order :=
  pieceOrder a.tag s.ct.slots[a.tag].useNo a.cmd a.piece.segment i part address

/-- A Scheduler with one more Foreground order at its tail. -/
def withForeground (q : Scheduler) (o : Order) : Scheduler := { q with foreground := q.foreground ++ [o] }

theorem setSched_kept (p : Port) (q : Scheduler) (s : State) :
    (setSched p q s).stats = s.stats ∧ (setSched p q s).pm = s.pm ∧ (setSched p q s).ct = s.ct := by
  cases p <;> exact ⟨rfl, rfl, rfl⟩

/-- What is left of a state when an order is placed in a Foreground queue. -/
theorem placeOrder_work (a : Attempt) (i : Nat) (part : OrderPart) (address : Address) (s : State) :
    workPart (placeOrder a i part address s)
      = workPart (setSched part.port (withForeground (sched part.port s) (partOrder a i part address s)) s)
      ∧ (placeOrder a i part address s).ct = s.ct := by
  exact ⟨reportWork_work _, (reportWork_ct _).trans (setSched_kept _ _ s).2.2⟩

theorem placeOrder_stats (a : Attempt) (i : Nat) (part : OrderPart) (address : Address) (s : State) {j : Counter}
    (h1 : j ≠ .noticesMerged) (h2 : j ≠ .postsDeferred) :
    (placeOrder a i part address s).stats[counterIndex j] = s.stats[counterIndex j] := by
  exact (((served_base _).reportWork (.refl _)).counters j h1 h2).trans
    (congrArg (fun v => v[counterIndex j]) (setSched_kept _ _ s).1)

/-- The piece of an attempt as it is issued. -/
def issuedPiece (route : Route) (parts : List OrderPart) (p : Piece) : Piece :=
  { p with state := .issued, route := some route, parts := parts }

/-- The slots as the piece of an attempt is issued. -/
def issuedSlots (a : Attempt) (route : Route) (parts : List OrderPart) (s : State) : Vector TagSlot 32 :=
  (modifyPiece a.tag a.piece.segment (issuedPiece route parts) s).ct.slots

/-- The one part of a piece that goes whole to a port. -/
def wholePart (a : Attempt) (port : Port) (op : Operation) : OrderPart := ⟨port, op, a.piece.sectors, .placed⟩

theorem partOrder_issued (a : Attempt) (route : Route) (parts : List OrderPart) (i : Nat) (part : OrderPart) (address : Address)
    (s : State) : partOrder a i part address (issuePiece a route parts s) = partOrder a i part address s := by
  unfold partOrder
  rw [show (issuePiece a route parts s).ct.slots[a.tag].useNo = s.ct.slots[a.tag].useNo from useNo_modifyPiece _ _ _ s]

theorem issueOne_platter (a : Attempt) (route : Route) (op : Operation) (address : Address) (s : State) :
    workPart (issueOne a route .platter op address s) = { workPart s with
      slots := issuedSlots a route [wholePart a .platter op] s
      pps := withForeground s.pps (partOrder a 0 (wholePart a .platter op) address s) } := by
  refine (placeOrder_work a 0 (wholePart a .platter op) address (issuePiece a route [wholePart a .platter op] s)).1.trans ?_
  rw [partOrder_issued]
  rfl

theorem issueOne_flash (a : Attempt) (route : Route) (op : Operation) (address : Address) (s : State) :
    workPart (issueOne a route .flash op address s) = { workPart s with
      slots := issuedSlots a route [wholePart a .flash op] s
      fps := withForeground s.fps (partOrder a 0 (wholePart a .flash op) address s) } := by
  refine (placeOrder_work a 0 (wholePart a .flash op) address (issuePiece a route [wholePart a .flash op] s)).1.trans ?_
  rw [partOrder_issued]
  rfl

theorem issueOne_ct (a : Attempt) (route : Route) (port : Port) (op : Operation) (address : Address) (s : State) :
    (issueOne a route port op address s).ct.passDue = s.ct.passDue :=
  (congrArg CommandTracker.passDue
    (placeOrder_work a 0 (wholePart a port op) address (issuePiece a route [wholePart a port op] s)).2).trans rfl

theorem issueOne_stats (a : Attempt) (route : Route) (port : Port) (op : Operation) (address : Address) (s : State) {j : Counter}
    (h1 : j ≠ .noticesMerged) (h2 : j ≠ .postsDeferred) :
    (issueOne a route port op address s).stats[counterIndex j] = s.stats[counterIndex j] :=
  placeOrder_stats a 0 (wholePart a port op) address (issuePiece a route [wholePart a port op] s) h1 h2

theorem issueOne_degraded (a : Attempt) (route : Route) (port : Port) (op : Operation) (address : Address) (s : State) :
    (issueOne a route port op address s).pm.degraded = s.pm.degraded := by
  exact (congrArg EnginePart.degraded ((served_base _).reportWork (.refl _)).part).trans
    (congrArg PlatterMonitor.degraded (setSched_kept _ _ (issuePiece a route [wholePart a port op] s)).2.1)

theorem commandOf_issuedSlots {a : Attempt} {s t : State} {route : Route} {parts : List OrderPart}
    (hc : commandOf a.tag s = some a.cmd) (hp : a.cmd.pieces = [a.piece]) (ht : t.ct.slots = issuedSlots a route parts s) :
    commandOf a.tag t = some { a.cmd with pieces := [issuedPiece route parts a.piece] } := by
  refine (commandOf_of_slots (s := modifyPiece a.tag a.piece.segment (issuedPiece route parts) s) ht a.tag).trans ?_
  exact commandOf_modifyPiece hc hp _

theorem noYieldHeld_issuedSlots {a : Attempt} {s t : State} {route : Route} {parts : List OrderPart} (h : noYieldHeld s)
    (ht : t.ct.slots = issuedSlots a route parts s) : noYieldHeld t :=
  noYieldHeld_of_slots (noYieldHeld_modifyPiece h fun _ => by simp [issuedPiece]) ht

end Sys2Proof.Machine

/-! ## Routing: the routes to the platter -/

namespace Sys2Proof.Machine

/-- A piece of an absent segment issued to the platter, as an attempt leaves it. -/
structure PlatterIssued (a : Attempt) (route : Route) (op : Operation) (s t : State) : Prop where
  work : workPart t = { workPart s with
    hu := (routeHeat a s).2.hu
    slots := issuedSlots a route [wholePart a .platter op] s
    pps := withForeground s.pps (partOrder a 0 (wholePart a .platter op) (.platter a.piece.segment) s) }
  passDue : t.ct.passDue = s.ct.passDue
  degraded : t.pm.degraded = s.pm.degraded
  counters : ∀ j, j ≠ .candidateDrops → j ≠ .noticesMerged → j ≠ .postsDeferred →
    t.stats[counterIndex j] = s.stats[counterIndex j]

theorem issuedSlots_of_ct {a : Attempt} {route : Route} {parts : List OrderPart} {s t : State} (h : t.ct = s.ct) :
    issuedSlots a route parts t = issuedSlots a route parts s := by
  unfold issuedSlots modifyPiece modifyCommand
  rw [h]

theorem partOrder_of_ct {a : Attempt} {i : Nat} {part : OrderPart} {address : Address} {s t : State} (h : t.ct = s.ct) :
    partOrder a i part address t = partOrder a i part address s := by
  unfold partOrder
  rw [h]

theorem issueOne_absent {a : Attempt} {route : Route} {op : Operation} {s : State} (hl : lookup a.piece.segment s = none) :
    PlatterIssued a route op s (issueOne a route .platter op (.platter a.piece.segment) (routeHeat a s).2) := by
  have hh : HeatLeaves s (routeHeat a s).2 s.sm := heatUpdate_absent hl
  have hwork := issueOne_platter a route op (.platter a.piece.segment) (routeHeat a s).2
  have hpps : (routeHeat a s).2.pps = s.pps := congrArg WorkPart.pps hh.work
  rw [issuedSlots_of_ct hh.ct, partOrder_of_ct hh.ct, hpps, hh.work] at hwork
  exact ⟨hwork, (issueOne_ct _ _ _ _ _ _).trans (congrArg CommandTracker.passDue hh.ct),
    (issueOne_degraded _ _ _ _ _ _).trans (congrArg PlatterMonitor.degraded hh.pm),
    fun j h1 h2 h3 => (issueOne_stats _ _ _ _ _ _ h2 h3).trans (hh.counters j h1 h2 h3)⟩

theorem askAdmission_noPromote {a : Attempt} (h : a.cmd.classCopy.noPromote = true) (heat : Nat) (s : State) :
    askAdmission a heat s = s := by
  unfold askAdmission admission admissionApplies
  simp [h]

theorem issuePlatter_absent {a : Attempt} {route : Route} {op : Operation} {s : State} (hl : lookup a.piece.segment s = none) :
    issuePlatter a route op s = askAdmission a (routeHeat a s).1
      (issueOne a route .platter op (.platter a.piece.segment) (routeHeat a s).2) := by
  unfold issuePlatter
  rw [hl]
  rfl

theorem lacksRoom_free {p : Port} {s : State} (h : (sched p s).foreground.length < 64) :
    lacksRoom p ⟨false, false⟩ s = false := by
  have hroom : foregroundRoom p s = true := decide_eq_true h
  cases p <;> simp [lacksRoom, hroom]

theorem tryPlatter_absent {a : Attempt} {route : Route} {op : Operation} {s : State} (hl : lookup a.piece.segment s = none)
    (hroom : s.pps.foreground.length < 64) (hn : a.cmd.classCopy.noPromote = true) :
    PlatterIssued a route op s (tryPlatter a route op ⟨false, false⟩ s).2 := by
  have ht : (tryPlatter a route op ⟨false, false⟩ s).2
      = issueOne a route .platter op (.platter a.piece.segment) (routeHeat a s).2 := by
    unfold tryPlatter
    rw [lacksRoom_free (p := .platter) hroom]
    exact (issuePlatter_absent hl).trans (askAdmission_noPromote hn _ _)
  rw [ht]
  exact issueOne_absent hl

/-- What a platter route leaves, said of the state before the pass. -/
theorem PlatterIssued.leaves {tag : Fin 32} {c : Command} {p : Piece} {route : Route} {op : Operation} {s t : State}
    (h : PlatterIssued (attemptOf tag c p s) route op (passBegun s) t) (hc : commandOf tag s = some c) (hp : c.pieces = [p]) :
    commandOf tag t = some { c with pieces := [{ p with
        state := .issued
        route := some route
        parts := [⟨.platter, op, p.sectors, .placed⟩] }] }
      ∧ t.pps.foreground = s.pps.foreground
          ++ [pieceOrder tag s.ct.slots[tag].useNo c p.segment 0 ⟨.platter, op, p.sectors, .placed⟩ (.platter p.segment)]
      ∧ t.hu = (heatUpdate p.segment c (evaluate p.segment s).boost s).2.hu
      ∧ t.ct.passDue = false ∧ t.ct.arrival = s.ct.arrival ∧ t.fps = s.fps ∧ t.sm = s.sm ∧ t.me = s.me
      ∧ t.lu.completions = s.lu.completions ∧ t.lu.mode = s.lu.mode := by
  have hw := h.work
  refine ⟨?_, congrArg (fun w => w.pps.foreground) hw, (congrArg WorkPart.hu hw).trans (heatUpdate_withCt _ _ _ _ s).2, h.passDue,
    congrArg WorkPart.arrival hw, congrArg WorkPart.fps hw, congrArg WorkPart.sm hw, congrArg WorkPart.me hw,
    congrArg WorkPart.completions hw, congrArg WorkPart.mode hw⟩
  exact commandOf_issuedSlots (a := attemptOf tag c p s) (s := passBegun s) hc hp (congrArg WorkPart.slots hw)

theorem PlatterIssued.yields {a : Attempt} {route : Route} {op : Operation} {s t : State} (h : PlatterIssued a route op s t)
    (hy : noYieldHeld s) : noYieldHeld t := noYieldHeld_issuedSlots hy (congrArg WorkPart.slots h.work)

theorem PlatterIssued.idle {a : Attempt} {route : Route} {op : Operation} {s t : State} (h : PlatterIssued a route op s t)
    (hi : EngineIdle s) : EngineIdle t :=
  hi.of_fields (congrArg (fun w => w.me.active) h.work) (congrArg (fun w => w.me.stack) h.work) (congrArg WorkPart.platter h.work)

theorem PlatterIssued.engineEvent {a : Attempt} {route : Route} {op : Operation} {s t : State} (h : PlatterIssued a route op s t)
    (hr : engineAtRest s) : engineEvent t = t := by
  obtain ⟨ha, hq, hs, h0, h1, hu, hp, hy⟩ := hr
  exact engineEvent_quiet (h.idle ⟨ha, hs, hp⟩) ((congrArg (fun w => w.me.urgent) h.work).trans hu) (h.yields hy)

/-! ### The attempts that lead there -/

theorem promotionBusy_none {g : Nat} {s : State} (h : s.me.active = none) : promotionBusy g s = false := by
  unfold promotionBusy activelyPromoted
  rw [h]
  rfl

theorem tryRead_absent {a : Attempt} {b : Blocked} {s : State} (hl : lookup a.piece.segment s = none) :
    tryRead a b s = tryPlatter a .platterRead .read b s := by
  unfold tryRead
  rw [hl]

theorem tryWrite_absent {a : Attempt} {b : Blocked} {s : State} (ha : s.me.active = none)
    (hl : lookup a.piece.segment s = none) :
    tryWrite a b s = if absorbsAbsent a s then tryAbsorb a b s else tryPlatter a .platterWrite .write b s := by
  unfold tryWrite
  rw [promotionBusy_none ha, hl]
  rfl

/-- A WRITE of an absent segment that finds neither a frame nor a victim goes to the platter (R85). -/
theorem tryAbsorb_noFrame {a : Attempt} {s : State} (hl : lookup a.piece.segment s = none)
    (hroom : s.fps.foreground.length < 64) (hf : s.sm.freeList = []) (hv : victimScan s = none)
    (hw : a.piece.state = .waiting .route) :
    tryAbsorb a ⟨false, false⟩ s = tryPlatter a .platterWrite .write ⟨false, false⟩ s := by
  have hreq : absorbRequest a.piece.segment s = (none, s) := by
    unfold absorbRequest createEntry
    rw [hl, hf]
  have hawait : stillAwaits a.piece s = false := by
    unfold stillAwaits awaitedFrame
    rw [hw]
    rfl
  unfold tryAbsorb
  rw [lacksRoom_free (p := .flash) hroom, hreq]
  dsimp only
  unfold noFrame
  rw [hawait, hv]
  rfl

/-! ### TRIM (R86) -/

/-- A TRIM of an absent segment, issued to the platter. -/
theorem tryTrim_absent {a : Attempt} {s : State} (ha : s.me.active = none) (hq : s.me.queue = []) (hs : s.me.stack = [])
    (hl : lookup a.piece.segment s = none) (hroom : s.pps.foreground.length < 64) :
    (tryTrim a ⟨false, false⟩ s).2
      = trimToTail a (issueOne a .platterTrim .platter .trim (.platter a.piece.segment) s) := by
  obtain ⟨u, hu⟩ : ∃ u, u = issueOne a .platterTrim .platter .trim (.platter a.piece.segment) s := ⟨_, rfl⟩
  have hwork := issueOne_platter a .platterTrim .trim (.platter a.piece.segment) s
  rw [← hu] at hwork
  have hume : u.me = s.me := congrArg WorkPart.me hwork
  have hul : lookup a.piece.segment u = none := by
    unfold lookup
    rw [show u.sm = s.sm from congrArg WorkPart.sm hwork]
    exact hl
  have heffect : trimEffect a.piece.segment a.piece.sectors u = u := by
    unfold trimEffect
    rw [hul]
  have hreport : trimReport a.piece.segment u = u := by
    unfold trimReport moveOf allMoves
    rw [hume, ha, hq, hs]
    rfl
  unfold tryTrim
  rw [promotionBusy_none ha, lacksRoom_free (p := .platter) hroom]
  show trimToTail a _ = _
  rw [← hu, heffect, hreport]

end Sys2Proof.Machine

/-! ## Routing: the routes to flash -/

namespace Sys2Proof.Machine

/-- A state that a route leaves where the engine was at rest: its moves and the platter's state are as they were, and its slots are
those of a piece issued. -/
theorem engineEvent_issued {a : Attempt} {route : Route} {parts : List OrderPart} {s t : State} (hr : engineAtRest s)
    (hme : t.me = s.me) (hp : t.pm.state = s.pm.state) (hs : t.ct.slots = issuedSlots a route parts s) : engineEvent t = t := by
  obtain ⟨ha, -, hst, -, -, hu, hpl, hy⟩ := hr
  exact engineEvent_quiet (EngineIdle.of_fields ⟨ha, hst, hpl⟩ (by rw [hme]) (by rw [hme]) hp) (by rw [hme]; exact hu)
    (noYieldHeld_issuedSlots hy hs)

/-! ### READ of a CLEAN entry (R24, R82) -/

/-- The map after a read hit of a CLEAN entry and its heat update. -/
def hitMap (g c : Nat) (e : Entry) (s : State) : SegmentMap :=
  { s.sm with
    entries := mapEntry g (fun x => { x with heat := updatedRec e.heat c s }) s.sm.entries
    reclaim := s.sm.reclaim.filter (fun x => x != g) ++ [g] }

theorem readHit_heated {a : Attempt} {e : Entry} {s : State} (he : lookup a.piece.segment s = some e) (hs : e.state = .clean) :
    HeatLeaves s (routeHeat a (readHit e s)).2 (hitMap a.piece.segment (contribution a.cmd a.verdict.boost) e s)
      ∧ (routeHeat a (readHit e s)).2.hu.candidates = s.hu.candidates := by
  have hg : e.segment = a.piece.segment := by simpa using List.find?_some he
  have hhit : readHit e s = toReclaimTail a.piece.segment s := by
    unfold readHit
    rw [if_pos hs, hg]
  obtain ⟨h, hcand⟩ := heatUpdate_present (c := a.cmd) (boost := a.verdict.boost)
    (show lookup a.piece.segment (toReclaimTail a.piece.segment s) = some e from he)
  rw [hhit]
  exact ⟨⟨h.work, h.ct, h.pm, h.epoch, h.counters⟩, hcand⟩

theorem lookup_hitMap {g c : Nat} {e : Entry} {s t : State} (he : lookup g s = some e) (ht : t.sm = hitMap g c e s) :
    lookup g t = some { e with heat := updatedRec e.heat c s } :=
  (lookup_of_mapEntry (f := fun x => { x with heat := updatedRec e.heat c s }) (t := t) (fun _ => rfl)
    (congrArg SegmentMap.entries ht) he).1

/-- A READ within the valid set of a CLEAN entry. -/
theorem tryRead_hit {a : Attempt} {e : Entry} {s : State} (he : lookup a.piece.segment s = some e)
    (hv : a.piece.sectors &&& ~~~validSet e = 0) (hroom : s.fps.foreground.length < 64) :
    (tryRead a ⟨false, false⟩ s).2 = issueOne a .flashRead .flash .read (.frame e.frame) (routeHeat a (readHit e s)).2 := by
  unfold tryRead
  rw [he]
  dsimp only
  rw [if_pos (show setMinus a.piece.sectors (validSet e) = 0 from hv), lacksRoom_free (p := .flash) hroom]
  rfl

theorem issueOne_hit {a : Attempt} {e : Entry} {s : State} (he : lookup a.piece.segment s = some e) (hs : e.state = .clean) :
    let t := issueOne a .flashRead .flash .read (.frame e.frame) (routeHeat a (readHit e s)).2
    workPart t = { workPart s with
        hu := t.hu
        sm := hitMap a.piece.segment (contribution a.cmd a.verdict.boost) e s
        slots := issuedSlots a .flashRead [wholePart a .flash .read] s
        fps := withForeground s.fps (partOrder a 0 (wholePart a .flash .read) (.frame e.frame) s) }
      ∧ t.ct.passDue = s.ct.passDue ∧ t.hu.candidates = s.hu.candidates := by
  intro t
  obtain ⟨hh, hcand⟩ := readHit_heated he hs
  have hwork := issueOne_flash a .flashRead .read (.frame e.frame) (routeHeat a (readHit e s)).2
  have hfps : (routeHeat a (readHit e s)).2.fps = s.fps := congrArg WorkPart.fps hh.work
  have hthu : t.hu = (routeHeat a (readHit e s)).2.hu := congrArg WorkPart.hu hwork
  rw [issuedSlots_of_ct hh.ct, partOrder_of_ct hh.ct, hfps, hh.work, ← hthu] at hwork
  exact ⟨hwork, (issueOne_ct _ _ _ _ _ _).trans (congrArg CommandTracker.passDue hh.ct), hthu ▸ hcand⟩

/-! ### READ that the valid set holds in part (R82) -/

/-- The part of a split read that flash serves. -/
def flashPart (a : Attempt) (e : Entry) : OrderPart := ⟨.flash, .read, a.piece.sectors &&& validSet e, .placed⟩

/-- The part of a split read that the platter serves. -/
def platterPart (a : Attempt) (e : Entry) : OrderPart := ⟨.platter, .read, a.piece.sectors &&& ~~~validSet e, .placed⟩

theorem tryRead_split {a : Attempt} {e : Entry} {s : State} (he : lookup a.piece.segment s = some e)
    (h1 : a.piece.sectors &&& validSet e ≠ 0) (h2 : a.piece.sectors &&& ~~~validSet e ≠ 0)
    (hf : s.fps.foreground.length < 64) (hp : s.pps.foreground.length < 64) :
    (tryRead a ⟨false, false⟩ s).2 = issueSplit a e s := by
  unfold tryRead
  rw [he]
  dsimp only
  rw [if_neg (show ¬ setMinus a.piece.sectors (validSet e) = 0 from h2), if_pos (by simpa [overlaps] using h1),
    lacksRoom_free (p := .flash) hf, lacksRoom_free (p := .platter) hp]
  rfl

theorem issueSplit_work {a : Attempt} {e : Entry} {s : State} (he : lookup a.piece.segment s = some e) (hs : e.state = .clean) :
    let t := issueSplit a e s
    workPart t = { workPart s with
        hu := t.hu
        sm := hitMap a.piece.segment (contribution a.cmd a.verdict.boost) e s
        slots := issuedSlots a .splitRead [flashPart a e, platterPart a e] s
        fps := withForeground s.fps
          (partOrder a 0 (flashPart a e) (.frame e.frame) s)
        pps := withForeground s.pps
          (partOrder a 1 (platterPart a e) (.platter a.piece.segment) s) } := by
  intro t
  obtain ⟨hh, -⟩ := readHit_heated he hs
  obtain ⟨u, hu⟩ : ∃ u, u = (routeHeat a (readHit e s)).2 := ⟨_, rfl⟩
  rw [← hu] at hh
  obtain ⟨m, hm⟩ : ∃ m, m = issuePiece a .splitRead [flashPart a e, platterPart a e] u := ⟨_, rfl⟩
  obtain ⟨h1, hc1⟩ := placeOrder_work a 0 (flashPart a e) (.frame e.frame) m
  generalize hv : placeOrder a 0 (flashPart a e) (.frame e.frame) m = v at h1 hc1
  obtain ⟨h2, -⟩ := placeOrder_work a 1 (platterPart a e)
    (.platter a.piece.segment) v
  have ht : t = placeOrder a 1 (platterPart a e) (.platter a.piece.segment) v := by
    rw [← hv, hm, hu]
    rfl
  have hslots : issuedSlots a .splitRead [flashPart a e, platterPart a e] u = issuedSlots a .splitRead [flashPart a e, platterPart a e] s :=
    issuedSlots_of_ct hh.ct
  have hmwork : workPart m = { workPart u with slots := issuedSlots a .splitRead [flashPart a e, platterPart a e] u } := by
    rw [hm]
    rfl
  have horder : ∀ i part address, partOrder a i part address m = partOrder a i part address s := fun i part address => by
    rw [hm, partOrder_issued, partOrder_of_ct hh.ct]
  have h1 : workPart v
      = { workPart m with fps := withForeground m.fps (partOrder a 0 (flashPart a e) (.frame e.frame) m) } := h1
  have h2 : workPart (placeOrder a 1 (platterPart a e) (.platter a.piece.segment) v) = { workPart v with
      pps := withForeground v.pps (partOrder a 1 (platterPart a e) (.platter a.piece.segment) v) } := h2
  have hmfps : m.fps = s.fps := (congrArg WorkPart.fps hmwork).trans (congrArg WorkPart.fps hh.work)
  have hmpps : m.pps = s.pps := (congrArg WorkPart.pps hmwork).trans (congrArg WorkPart.pps hh.work)
  have hmhu : m.hu = u.hu := congrArg WorkPart.hu hmwork
  have hvpps : v.pps = s.pps := (congrArg WorkPart.pps h1).trans hmpps
  have hvhu : v.hu = u.hu := (congrArg WorkPart.hu h1).trans hmhu
  have hthu : t.hu = u.hu := by
    rw [ht]
    exact (congrArg WorkPart.hu h2).trans hvhu
  rw [hthu, ht, h2, partOrder_of_ct hc1, horder, hvpps, h1, horder, hmfps, hmwork, hslots, hh.work]

/-! ### WRITE of an absent segment, absorbed (R3, R6, R83) -/

theorem lookup_insertEntry {e : Entry} {s t : State} (hl : lookup e.segment s = none)
    (ht : t.sm.entries = insertEntry e s.sm.entries) : lookup e.segment t = some e := by
  have hfind : ∀ es : List Entry, (es.find? fun x => x.segment == e.segment) = none →
      ((insertEntry e es).find? fun x => x.segment == e.segment) = some e := by
    intro es hes
    induction es with
    | nil => simp [insertEntry]
    | cons d ds ih =>
      have hd : (d.segment == e.segment) = false :=
        Bool.eq_false_of_not_eq_true (List.find?_eq_none.1 hes d List.mem_cons_self)
      rw [List.find?_cons, hd] at hes
      unfold insertEntry
      split
      · simp
      · rw [List.find?_cons, hd]
        exact ih hes
  unfold lookup
  rw [ht]
  exact hfind _ hl

/-- The map after an absent segment's absorb is granted. -/
def freshMapWith (e : Entry) (rest : List Nat) (s : State) : SegmentMap :=
  { s.sm with
    entries := insertEntry e s.sm.entries
    frames := s.sm.frames.modify e.frame (fun x => { x with state := .bound })
    freeList := rest }

/-- The entry of R3 for an absorb. -/
def freshEntry (g f : Nat) (h : HeatRec) : Entry := ⟨g, f, .fresh, .part 0, 0, h, 1, 0, none⟩

theorem takeCandidate_leaves (g : Nat) (s : State) : HeatLeaves s (takeCandidate g s).2 s.sm := by
  unfold takeCandidate
  split <;> exact ⟨rfl, rfl, rfl, rfl, fun _ _ _ _ => rfl⟩

theorem absorbRequest_absent {g f : Nat} {rest : List Nat} {s : State} (hl : lookup g s = none) (hf : s.sm.freeList = f :: rest) :
    ∃ h, (absorbRequest g s).1 = some f ∧ HeatLeaves s (absorbRequest g s).2 (freshMapWith (freshEntry g f h) rest s) := by
  have ht := takeCandidate_leaves g s
  have hsm : (takeCandidate g s).2.sm = s.sm := congrArg WorkPart.sm ht.work
  have hreq : absorbRequest g s = (some f, touch 0 { (takeCandidate g s).2 with
      sm.freeList := rest
      sm.frames := withFrameState f .bound (takeCandidate g s).2.sm.frames
      sm.entries := insertEntry (freshEntry g f (takeCandidate g s).1) (takeCandidate g s).2.sm.entries }) := by
    unfold absorbRequest createEntry
    rw [hl, hf]
    rfl
  generalize takeCandidate g s = r at ht hsm hreq
  obtain ⟨h, u⟩ := r
  rw [hreq]
  refine ⟨h, rfl, ?_, ht.ct, ht.pm, ht.epoch, ht.counters⟩
  show ({ workPart u with sm := { u.sm with
    freeList := rest
    frames := withFrameState f .bound u.sm.frames
    entries := insertEntry (freshEntry g f h) u.sm.entries } } : WorkPart) = _
  have hsm : u.sm = s.sm := hsm
  have hwork : workPart u = { workPart s with hu := u.hu, sm := s.sm } := ht.work
  rw [hwork, hsm]
  rfl

/-- A WRITE of an absent segment absorbed into a NEW entry on the head of the Free Frame List. -/
theorem tryAbsorb_absent {a : Attempt} {f : Nat} {rest : List Nat} {s : State} (hl : lookup a.piece.segment s = none)
    (hroom : s.fps.foreground.length < 64) (hf : s.sm.freeList = f :: rest) :
    let t := (tryAbsorb a ⟨false, false⟩ s).2
    t.ct.passDue = s.ct.passDue ∧ ∃ h es, workPart t = { workPart s with
        hu := t.hu
        sm := { freshMapWith (freshEntry a.piece.segment f h) rest s with entries := es }
        slots := issuedSlots a .absorb [wholePart a .flash .write] s
        fps := withForeground s.fps (partOrder a 0 (wholePart a .flash .write) (.frame f) s) }
      ∧ lookup a.piece.segment t = some (freshEntry a.piece.segment f h) := by
  intro t
  obtain ⟨h, hsome, hleaves⟩ := absorbRequest_absent hl hf
  obtain ⟨u, hu⟩ : ∃ u, u = (absorbRequest a.piece.segment s).2 := ⟨_, rfl⟩
  rw [← hu] at hleaves
  have husm : u.sm = freshMapWith (freshEntry a.piece.segment f h) rest s := congrArg WorkPart.sm hleaves.work
  have hul : lookup a.piece.segment u = some (freshEntry a.piece.segment f h) :=
    lookup_insertEntry (e := freshEntry a.piece.segment f h) (s := s) hl (congrArg SegmentMap.entries husm)
  obtain ⟨hheat, -⟩ := heatUpdate_present (c := a.cmd) (boost := a.verdict.boost) hul
  have ht : t = issueOne a .absorb .flash .write (.frame f) (routeHeat a u).2 := by
    show (tryAbsorb a _ s).2 = _
    have hreq : absorbRequest a.piece.segment s = (some f, u) := Prod.ext hsome hu.symm
    unfold tryAbsorb
    rw [lacksRoom_free (p := .flash) hroom, hreq]
    rfl
  have hheat : HeatLeaves u (routeHeat a u).2 _ := hheat
  generalize (routeHeat a u).2 = v at hheat ht
  have hct : v.ct = s.ct := hheat.ct.trans hleaves.ct
  have hwork := issueOne_flash a .absorb .write (.frame f) v
  rw [← ht, issuedSlots_of_ct hct, partOrder_of_ct hct] at hwork
  have hufps : u.fps = s.fps := congrArg WorkPart.fps hleaves.work
  have hvfps : v.fps = s.fps := (congrArg WorkPart.fps hheat.work).trans hufps
  have hthu : t.hu = v.hu := congrArg WorkPart.hu hwork
  rw [hvfps, hheat.work, ← hthu, hleaves.work, husm] at hwork
  refine ⟨?_, updatedRec h (contribution a.cmd a.verdict.boost) u, _, hwork, ?_⟩
  · rw [ht]
    exact (issueOne_ct _ _ _ _ _ _).trans (congrArg CommandTracker.passDue hct)
  · have hentries : t.sm.entries = _ := congrArg (fun w => w.sm.entries) hwork
    exact (lookup_of_mapEntry (s := u) (t := t) (f := fun x => { x with
      heat := updatedRec h (contribution a.cmd a.verdict.boost) u }) (fun _ => rfl)
      (hentries.trans (congrArg (mapEntry _ _) (congrArg SegmentMap.entries husm).symm)) hul).1

end Sys2Proof.Machine

/-! ## Routing: a piece held by a yield, and admission -/

namespace Sys2Proof.Machine

/-! ### WRITE and TRIM meeting a promotion (R78, R126) -/

theorem releaseWhere_rest (test : Fin 32 → Command → Piece → Bool) (s : State) :
    (releaseWhere test s).hu = s.hu ∧ (releaseWhere test s).lu = s.lu := by
  unfold releaseWhere
  split
  · simp
  · exact ⟨rfl, rfl⟩

/-- A command none of whose pieces passes the test is left by a release. -/
theorem commandOf_releaseWhere {test : Fin 32 → Command → Piece → Bool} {s : State} {tag : Fin 32} {c : Command}
    (h : commandOf tag s = some c) (hp : ∀ p ∈ c.pieces, test tag c p = false) :
    commandOf tag (releaseWhere test s) = some c := by
  unfold releaseWhere
  split
  · rw [commandOf_callPass, commandOf_mapPieces, h, Option.map_some]
    have hsame : c.pieces.map (fun p => if test tag c p then { p with state := .waiting (releasedReason s) } else p)
        = c.pieces := (List.map_congr_left (g := id) fun p hm => by simp [hp p hm]).trans (List.map_id _)
    rw [hsame]
  · exact h

/-- The promotion of a segment is active, with a chunk order of it queued or outstanding. -/
structure Promoting (g : Nat) (m : Move) (k : ChunkSlot) (s : State) : Prop where
  active : s.me.active = some m
  kind : isFlush m.kind = false
  segment : m.segment = g
  inbound : ∃ e, lookup g s = some e ∧ e.state = .inbound
  slot0 : s.me.slot0 = some k
  stage : k.stage ≠ .writeWaiting
  slot1 : s.me.slot1 = none

theorem Promoting.activelyPromoted {g : Nat} {m : Move} {k : ChunkSlot} {s : State} (h : Promoting g m k s) :
    activelyPromoted g s = true := by
  obtain ⟨e, he, hi⟩ := h.inbound
  unfold Machine.activelyPromoted
  rw [h.active, he]
  simp [h.segment, h.kind, hi]

theorem Promoting.busy {g : Nat} {m : Move} {k : ChunkSlot} {s : State} (h : Promoting g m k s) : promotionBusy g s = true := by
  unfold promotionBusy chunkOrdered
  rw [h.activelyPromoted, h.slot0]
  simp [h.stage]

theorem Promoting.awaited {g : Nat} {m : Move} {k : ChunkSlot} {s : State} (h : Promoting g m k s) : yieldAwaited g s = true := by
  unfold yieldAwaited chunkInFlight
  rw [h.activelyPromoted, h.slot0]
  rfl

/-- The state as a piece is held by a yield. -/
def yieldHeldState (a : Attempt) (m : Move) (s : State) : State :=
  { modifyPiece a.tag a.piece.segment (fun p => { p with state := .held true }) s with
    me.active := some { m with yielding := true } }

theorem holdByYield_promoting {a : Attempt} {m : Move} {k : ChunkSlot} {s : State} (h : Promoting a.piece.segment m k s)
    (hs : m.state = .active) : holdByYield a s = yieldHeldState a m s := by
  obtain ⟨e, he, hi⟩ := h.inbound
  have hany : ((lookup a.piece.segment (modifyPiece a.tag a.piece.segment (fun p => { p with state := .held true }) s)).any
      fun e => e.state == .inbound) = true := by
    rw [show lookup a.piece.segment (modifyPiece a.tag a.piece.segment _ s) = some e from he]
    simp [hi]
  unfold holdByYield yieldRequest
  rw [if_pos hany]
  unfold modifyActive yieldHeldState
  rw [show (modifyPiece a.tag a.piece.segment _ s).me.active = some m from h.active]
  simp [h.segment, h.kind, hs]

theorem placeWrite_busy {s : State} {k : ChunkSlot} (h0 : s.me.slot0 = some k) (hk : k.stage ≠ .writeWaiting)
    (h1 : s.me.slot1 = none) : placeWrite s = s := by
  refine placeWrite_idle ?_
  have hstage : (k.stage == ChunkStage.writeWaiting) = false := by simpa using hk
  unfold waitingSlot
  rw [h0, h1, Option.filter_some, hstage]
  rfl

theorem startChunk_yielding {s : State} {m : Move} (ha : s.me.active = some m) (hy : m.yielding = true) : startChunk s = s := by
  have hgate : chunkGate m s = false := by simp [chunkGate, hy]
  unfold startChunk
  rw [ha]
  dsimp only
  split
  · rw [hgate]
    rfl
  · rfl

/-- An event of the engine while its promotion yields: the pieces that other yields held are released, and nothing else. -/
theorem engineEvent_yielding {s : State} {m : Move} {k : ChunkSlot} (hm : s.lu.mode ≠ .saving) (ha : s.me.active = some m)
    (hy : m.yielding = true) (h0 : s.me.slot0 = some k) (hk : k.stage ≠ .writeWaiting) (h1 : s.me.slot1 = none)
    (hq : s.me.queue = []) (hd : s.sm.dirty = []) : engineEvent s = s ∨ engineEvent s = releaseYields s := by
  have hpre : preemptTest s = s := by
    unfold preemptTest
    rw [ha]
    simp [hq, chunkInFlight, h0]
  have hchecks : engineChecks s = s := by
    unfold engineChecks
    rw [urgentCheck_idle (.inl hd), flushCheck_idle (.inl hd)]
    split
    · dsimp only
      rw [hpre, arbiter_active ha]
    · rfl
  have hpump : pumpChunks s = s := by
    unfold pumpChunks
    rw [placeWrite_busy h0 hk h1, placeWrite_busy h0 hk h1, startChunk_yielding ha hy, startChunk_yielding ha hy,
      placeWrite_busy h0 hk h1, placeWrite_busy h0 hk h1, ite_self]
  unfold engineEvent
  rw [hchecks, hpump, pauseTest_online hm]
  split
  · exact .inl rfl
  · exact .inr rfl

/-- The hold of a WRITE or TRIM piece by a yield, and the event that follows. -/
theorem holdByYield_leaves {a : Attempt} {m : Move} {k : ChunkSlot} {s : State} (h : Promoting a.piece.segment m k s)
    (hs : m.state = .active) (hm : s.lu.mode ≠ .saving) (hq : s.me.queue = []) (hd : s.sm.dirty = [])
    (hc : commandOf a.tag s = some a.cmd) (hp : a.cmd.pieces = [a.piece]) :
    let t := engineEvent (holdByYield a s)
    commandOf a.tag t = some { a.cmd with pieces := [{ a.piece with state := .held true }] }
      ∧ t.me = { s.me with active := some { m with yielding := true } } ∧ t.sm = s.sm ∧ t.hu = s.hu ∧ t.fps = s.fps
      ∧ t.pps = s.pps ∧ t.lu.completions = s.lu.completions ∧ t.lu.mode = s.lu.mode := by
  intro t
  obtain ⟨u, hu⟩ : ∃ u, u = yieldHeldState a m s := ⟨_, rfl⟩
  have hucmd : commandOf a.tag u = some { a.cmd with pieces := [{ a.piece with state := .held true }] } := by
    rw [hu]
    exact commandOf_modifyPiece hc hp _
  have hume : u.me = { s.me with active := some { m with yielding := true } } := by rw [hu]; rfl
  have hurest : u.sm = s.sm ∧ u.hu = s.hu ∧ u.fps = s.fps ∧ u.pps = s.pps ∧ u.lu = s.lu := by
    rw [hu]
    exact ⟨rfl, rfl, rfl, rfl, rfl⟩
  obtain ⟨hsm, hhu, hfps, hpps, hlu⟩ := hurest
  have hevent := engineEvent_yielding (s := u) (m := { m with yielding := true }) (hlu ▸ hm) (by rw [hume]) rfl
    (by rw [hume]; exact h.slot0) h.stage (by rw [hume]; exact h.slot1) (by rw [hume]; exact hq) (hsm ▸ hd)
  have ht : t = engineEvent u := by
    rw [hu, ← holdByYield_promoting h hs]
  obtain ⟨e, he, hi⟩ := h.inbound
  have hpromoting : Promoting a.piece.segment { m with yielding := true } k u :=
    ⟨by rw [hume], h.kind, h.segment, ⟨e, by unfold lookup; rw [hsm]; exact he, hi⟩, by rw [hume]; exact h.slot0, h.stage,
      by rw [hume]; exact h.slot1⟩
  rcases hevent with hev | hev
  · rw [ht, hev, hlu]
    exact ⟨hucmd, hume, hsm, hhu, hfps, hpps, rfl, rfl⟩
  · obtain ⟨rf, rp, rs, rm⟩ := releaseWhere_work (fun _ _ p => p.state == .held true && !yieldAwaited p.segment u) u
    obtain ⟨rh, rl⟩ := releaseWhere_rest (fun _ _ p => p.state == .held true && !yieldAwaited p.segment u) u
    rw [ht, hev]
    unfold releaseYields
    rw [rf, rp, rs, rm, rh, rl, hlu]
    refine ⟨commandOf_releaseWhere hucmd fun p hpm => ?_, hume, hsm, hhu, hfps, hpps, rfl, rfl⟩
    obtain rfl : p = { a.piece with state := .held true } := by simpa using hpm
    simp [hpromoting.awaited]

end Sys2Proof.Machine

/-! ## Routing: the pass of one piece by the kind of its command -/

namespace Sys2Proof.Machine

/-! ### The attempt by kind (R80, R81) -/

/-- The attempt that a pass over one piece makes, and the event of the Migration Engine that follows. -/
theorem exec_routingPass_single {s : State} {tag : Fin 32} {c : Command} {p : Piece} (hd : s.ct.passDue = true)
    (hm : s.lu.mode ≠ .saving) (ha : s.ct.arrival = [tag]) (hc : commandOf tag s = some c) (hp : c.pieces = [p])
    (hw : p.state = .waiting .route) :
    exec .routingPass s
      = .next (engineEvent (attemptRoute (attemptOf tag c p s) ⟨false, false⟩ (passBegun s)).2) := by
  rw [exec_routingPass hd hm, routingPass_single ha hc hp hw]

theorem attemptRoute_read {a : Attempt} (h : a.cmd.kind = .read) (b : Blocked) (s : State) :
    attemptRoute a b s = tryRead a b s := by
  unfold attemptRoute
  rw [h]

theorem attemptRoute_write {a : Attempt} (h : a.cmd.kind = .write) (b : Blocked) (s : State) :
    attemptRoute a b s = tryWrite a b s := by
  unfold attemptRoute
  rw [h]

theorem attemptRoute_trim {a : Attempt} (h : a.cmd.kind = .trim) (b : Blocked) (s : State) :
    attemptRoute a b s = tryTrim a b s := by
  unfold attemptRoute
  rw [h]

/-- A WRITE or TRIM that meets a promotion with a chunk order of its segment is held. -/
theorem attemptRoute_busy {a : Attempt} (h : a.cmd.kind = .write ∨ a.cmd.kind = .trim) (b : Blocked) {s : State}
    (hb : promotionBusy a.piece.segment s = true) : (attemptRoute a b s).2 = holdByYield a s := by
  rcases h with h | h
  · rw [attemptRoute_write h]
    unfold tryWrite
    rw [if_pos hb]
  · rw [attemptRoute_trim h]
    unfold tryTrim
    rw [if_pos hb]

/-! ### The platter order of a TRIM (R86) -/

/-- The order of a TRIM that is the last of its queue, and the only one of its piece, keeps its place. -/
theorem trimToTail_last {a : Attempt} {s : State} {q : List Order} {o : Order} (hq : s.pps.foreground = q ++ [o])
    (ho : o.origin = .piece a.tag s.ct.slots[a.tag].useNo a.piece.segment 0)
    (hold : ∀ x ∈ q, x.origin ≠ .piece a.tag s.ct.slots[a.tag].useNo a.piece.segment 0) : trimToTail a s = s := by
  have hothers : (q ++ [o]).filter (fun x => !(x.origin == .piece a.tag s.ct.slots[a.tag].useNo a.piece.segment 0)) = q := by
    rw [List.filter_append, List.filter_eq_self.2 fun x hx => by simpa using hold x hx]
    simp [ho]
  have hmine : (q ++ [o]).filter (fun x => x.origin == .piece a.tag s.ct.slots[a.tag].useNo a.piece.segment 0) = [o] := by
    rw [List.filter_append, List.filter_eq_nil_iff.2 fun x hx => by simpa using hold x hx]
    simp [ho]
  unfold trimToTail
  rw [hq]
  dsimp only
  rw [hothers, hmine, ← hq]

/-- The TRIM of an absent segment, with no queued platter order of its piece before it. -/
theorem tryTrim_issued {a : Attempt} {s : State} (hr : engineAtRest s) (hl : lookup a.piece.segment s = none)
    (hroom : s.pps.foreground.length < 64)
    (hold : ∀ o ∈ s.pps.foreground, ∀ g i, o.origin ≠ .piece a.tag s.ct.slots[a.tag].useNo g i) :
    (tryTrim a ⟨false, false⟩ s).2 = issueOne a .platterTrim .platter .trim (.platter a.piece.segment) s := by
  obtain ⟨ha, hq, hs, -⟩ := hr
  have hwork := issueOne_platter a .platterTrim .trim (.platter a.piece.segment) s
  have huse : (issueOne a .platterTrim .platter .trim (.platter a.piece.segment) s).ct.slots[a.tag].useNo
      = s.ct.slots[a.tag].useNo :=
    (congrArg (fun w => w.slots[a.tag].useNo) hwork).trans (useNo_modifyPiece _ _ _ s)
  rw [tryTrim_absent ha hq hs hl hroom]
  refine trimToTail_last (congrArg (fun w => w.pps.foreground) hwork) ?_ fun x hx => ?_
  · rw [huse]
    rfl
  · rw [huse]
    exact hold x hx _ _

end Sys2Proof.Machine

/-! ## Routing: admission of an absent segment -/

namespace Sys2Proof.Machine

/-! ### What an admission leaves of the orders and the moves -/

/-- The orders placed before an admission, and what an event of the Migration Engine would act on, are as they were. -/
structure Admits (s t : State) : Prop where
  foreground : t.pps.foreground = s.pps.foreground
  slots : t.ct.slots = s.ct.slots
  platter : t.pm.state = s.pm.state
  active : t.me.active = s.me.active
  stack : t.me.stack = s.me.stack
  urgent : t.me.urgent = s.me.urgent

theorem Admits.of_work {s t : State} (h : workPart t = workPart s) : Admits s t :=
  ⟨congrArg (fun w => w.pps.foreground) h, congrArg WorkPart.slots h, congrArg WorkPart.platter h,
    congrArg (fun w => w.me.active) h, congrArg (fun w => w.me.stack) h, congrArg (fun w => w.me.urgent) h⟩

theorem Admits.trans {r s t : State} (h : Admits r s) (k : Admits s t) : Admits r t :=
  ⟨k.foreground.trans h.foreground, k.slots.trans h.slots, k.platter.trans h.platter, k.active.trans h.active,
    k.stack.trans h.stack, k.urgent.trans h.urgent⟩

theorem Admits.engineEvent {s t : State} (h : Admits s t) (hi : EngineIdle s) (hu : s.me.urgent = false) (hy : noYieldHeld s) :
    engineEvent t = t :=
  engineEvent_quiet (hi.of_fields h.active h.stack h.platter) (h.urgent.trans hu) (noYieldHeld_of_slots hy h.slots)

/-- The migration engine with one move in its queue. -/
def oneMove (kind : MoveKind) (g : Nat) (me : MigrationEngine) : MigrationEngine :=
  { me with
    queue := [newMove (me.lastNumber + 1) kind g]
    lastNumber := me.lastNumber + 1 }

theorem withMove_served (kind : MoveKind) (g : Nat) (s : State) :
    Served { s with me := oneMove kind g s.me } (withMove kind g s) :=
  (served_base _).reportWork (.refl _)

theorem admits_withMove (kind : MoveKind) (g : Nat) (s : State) : Admits s (withMove kind g s) := by
  have h : workPart (withMove kind g s) = workPart { s with me := oneMove kind g s.me } := reportWork_work _
  have ha := Admits.of_work h
  exact ⟨ha.foreground, ha.slots, ha.platter, ha.active, ha.stack, ha.urgent⟩

/-! ### The removal of a CLEAN entry (R5, R21, R22) -/

/-- No flash order of a queue belongs to a command that is tracked. -/
def ReadsUntracked (s : State) : Prop :=
  ∀ o ∈ s.fps.foreground, ∀ tag useNo g i, o.origin = .piece tag useNo g i → tracked tag useNo s = false

theorem withdrawn_untracked {o : Order} {s : State} (h : ∀ tag useNo g i, o.origin = .piece tag useNo g i →
    tracked tag useNo s = false) : withdrawn o s = s := by
  unfold withdrawn
  split
  · rename_i tag useNo g i ho
    simp [h tag useNo g i ho]
  all_goals rfl

theorem withdrawnAll_untracked {s : State} {os : List Order} (h : ∀ o ∈ os, ∀ tag useNo g i, o.origin = .piece tag useNo g i →
    tracked tag useNo s = false) : os.foldl (fun t o => withdrawn o t) s = s := by
  induction os with
  | nil => rfl
  | cons o os ih =>
    rw [List.foldl_cons, withdrawn_untracked (h o List.mem_cons_self)]
    exact ih fun x hx => h x (List.mem_cons_of_mem _ hx)

/-- The platter's Foreground queue and the slots are as they were. -/
structure OrdersKept (s t : State) : Prop where
  foreground : t.pps.foreground = s.pps.foreground
  slots : t.ct.slots = s.ct.slots

theorem OrdersKept.trans {r s t : State} (h : OrdersKept r s) (k : OrdersKept s t) : OrdersKept r t :=
  ⟨k.foreground.trans h.foreground, k.slots.trans h.slots⟩

theorem OrdersKept.placeBackground {r s : State} (o : Order) (h : OrdersKept r s) : OrdersKept r (placeBackground o s) := by
  have hw := placeBackground_work o s
  refine h.trans ⟨(congrArg (fun w => w.pps.foreground) hw).trans ?_, (congrArg WorkPart.slots hw).trans ?_⟩
  · show (setSched o.port _ s).pps.foreground = _
    cases o.port <;> rfl
  · exact congrArg CommandTracker.slots (setSched_kept _ _ s).2.2

theorem OrdersKept.askTrim {r s : State} (f : Nat) (h : OrdersKept r s) : OrdersKept r (askTrim f s) := by
  unfold Machine.askTrim
  split
  · exact h.placeBackground _
  · split
    · exact h
    · exact ⟨h.foreground, h.slots⟩

theorem OrdersKept.giveRoom {r s : State} (h : OrdersKept r s) : OrdersKept r (giveRoom s) := by
  have hrefill : OrdersKept r (refillHeld s) := ⟨h.foreground, h.slots⟩
  unfold Machine.giveRoom
  generalize refillHeld s = t at hrefill ⊢
  unfold placeCheckpoint
  split
  · split
    · exact OrdersKept.placeBackground _ ⟨hrefill.foreground, hrefill.slots⟩
    · exact hrefill
  · unfold placeLabelReads
    split
    · exact ⟨hrefill.foreground, hrefill.slots⟩
    all_goals exact hrefill

theorem OrdersKept.dropFrameOrders {r s : State} (f : Nat) (h : OrdersKept r s) : OrdersKept r (dropFrameOrders f s) := by
  unfold Machine.dropFrameOrders
  dsimp only
  split
  · exact OrdersKept.giveRoom ⟨h.foreground, h.slots⟩
  · exact OrdersKept.giveRoom ⟨h.foreground, h.slots⟩

theorem frameLeavesBound_ordersKept (f : Nat) {s : State} (h : ReadsUntracked s) : OrdersKept s (frameLeavesBound f s) := by
  obtain ⟨v, hv⟩ : ∃ v, v = touch 0 { s with sm.frames := withFrameState f .trimming s.sm.frames } := ⟨_, rfl⟩
  have hkept : OrdersKept s (dropFrameOrders f v) := by
    rw [hv]
    exact OrdersKept.dropFrameOrders f ⟨rfl, rfl⟩
  have hnone : (v.fps.foreground.filter (leavesWith f)).foldl (fun t o => withdrawn o t) (dropFrameOrders f v)
      = dropFrameOrders f v := withdrawnAll_untracked fun o ho tag useNo g i horigin => by
    have hs := h o (by rw [hv] at ho; exact (List.mem_filter.1 ho).1) tag useNo g i horigin
    unfold tracked commandOf at hs ⊢
    rw [hkept.slots]
    exact hs
  unfold frameLeavesBound
  dsimp only
  rw [← hv, hnone]
  split
  · exact hkept.askTrim f
  · exact hkept

/-- The map without a CLEAN entry, its frame TRIMMING. -/
def evictedMap (g : Nat) (e : Entry) (sm : SegmentMap) : SegmentMap :=
  { sm with
    entries := sm.entries.filter fun x => x.segment != g
    reclaim := sm.reclaim.filter fun x => x != g
    dirty := sm.dirty.filter fun x => x != g
    frames := withFrameState e.frame .trimming sm.frames }

theorem removeEntry_clean {g : Nat} {e : Entry} {s : State} (he : lookup g s = some e) (hs : e.state = .clean)
    (hm : e.marker = none) (hr : ReadsUntracked s) :
    Served { s with sm := evictedMap g e s.sm } (removeEntry g s) ∧ Admits s (removeEntry g s) := by
  obtain ⟨v, hv⟩ : ∃ v, v = offLists g { s with sm.entries := s.sm.entries.filter fun x => x.segment != g } := ⟨_, rfl⟩
  have hrem : removeEntry g s = frameLeavesBound e.frame v := by
    unfold removeEntry
    rw [he]
    dsimp only
    rw [hs, hm, hv]
    rfl
  have hserved := frameLeavesBound_served e.frame v
  have hkept := frameLeavesBound_ordersKept e.frame (s := v) (by rw [hv]; exact hr)
  rw [← hrem, hv] at hserved hkept
  exact ⟨⟨hserved.part, hserved.me, hserved.sm, hserved.counters⟩, hkept.foreground, hkept.slots,
    congrArg EnginePart.platter hserved.part, congrArg MigrationEngine.active hserved.me,
    congrArg MigrationEngine.stack hserved.me, congrArg MigrationEngine.urgent hserved.me⟩

end Sys2Proof.Machine

/-! ## Routing: the cases of an admission (R45 to R49) -/

namespace Sys2Proof.Machine

/-! ### The victim scan and the eviction -/

theorem coldestEntry_of_fields {s t : State} (hp : t.params = s.params) (he : t.hu.epoch = s.hu.epoch) (es : List Entry) :
    coldestEntry t es = coldestEntry s es := by
  have hheat : ∀ r, decayedHeat r t = decayedHeat r s := fun r => by
    unfold decayedHeat
    rw [hp, he]
  induction es with
  | nil => rfl
  | cons e es ih =>
    unfold coldestEntry
    rw [ih]
    simp only [hheat]

theorem victimScan_of_fields {s t : State} (hsm : t.sm = s.sm) (hrc : t.rc = s.rc) (hp : t.params = s.params)
    (he : t.hu.epoch = s.hu.epoch) : victimScan t = victimScan s := by
  have hscanned : scanned t = scanned s := by
    unfold scanned evictable pinned evaluate lookup
    rw [hsm, hrc, hp]
  have hheat : ∀ r, decayedHeat r t = decayedHeat r s := fun r => by
    unfold decayedHeat
    rw [hp, he]
  unfold victimScan
  rw [hscanned, coldestEntry_of_fields hp he]
  simp only [hheat]

/-- The victim of a scan has an entry that may be evicted. -/
theorem evictable_of_victimScan {s : State} {v h : Nat} (hs : victimScan s = some (v, h)) :
    ∃ e, lookup v s = some e ∧ evictable e s = true := by
  obtain ⟨e, he, hvh⟩ := Option.map_eq_some_iff.1 hs
  obtain ⟨before, after, hes, -, -⟩ := coldestEntry_some he
  have hseen : e ∈ scanned s := by simp [hes]
  obtain ⟨hmem, hev⟩ := List.mem_filter.1 (List.mem_of_mem_take hseen)
  obtain ⟨seg, -, hseg⟩ := List.mem_filterMap.1 hmem
  have hsegment : e.segment = seg := by simpa using List.find?_some hseg
  cases hvh
  exact ⟨e, hsegment ▸ hseg, hev⟩

theorem evict_clean {v : Nat} {e : Entry} {s : State} (he : lookup v s = some e) (hc : e.state = .clean)
    (hev : evictable e s = true) : evict v s = (some e.frame, bump .evictions (removeEntry v s)) := by
  unfold evict
  rw [he]
  simp [hc, hev]

theorem evict_other {v : Nat} {e : Entry} {s : State} (he : lookup v s = some e) (hc : e.state ≠ .clean) :
    evict v s = (none, s) := by
  unfold evict
  rw [he]
  simp [hc]

/-! ### The cases of the test -/

/-- The Migration Engine has no move, and takes requests. -/
structure Unasked (s : State) : Prop where
  active : s.me.active = none
  queue : s.me.queue = []
  stack : s.me.stack = []
  tests : engineTests s = true

theorem Unasked.requestMove {s : State} (h : Unasked s) (g : Nat) {kind : MoveKind} (hk : isFlush kind = false) :
    (requestMove g kind s).2 = withMove kind g s := by
  rw [requestMove_without_moves (by simp [allMoves, h.active, h.queue, h.stack]) h.queue h.tests hk]

/-- What the eviction of a CLEAN victim leaves. -/
theorem evicted_leaves {v : Nat} {e : Entry} {s : State} (he : lookup v s = some e) (hc : e.state = .clean)
    (hev : evictable e s = true) (hr : ReadsUntracked s) :
    let t := bump .evictions (removeEntry v s)
    Admits s t ∧ t.me = s.me ∧ t.sm = evictedMap v e s.sm ∧ (Unasked s → Unasked t)
      ∧ t.stats[counterIndex .evictions] = (bump .evictions s).stats[counterIndex .evictions] := by
  intro t
  have hmark : e.marker = none := by
    unfold evictable at hev
    simp only [Bool.and_eq_true, Option.isNone_iff_eq_none] at hev
    exact hev.2
  obtain ⟨hserved, hadmits⟩ := removeEntry_clean he hc hmark hr
  have hw : workPart t = workPart (removeEntry v s) := bump_work _ _
  have hme : t.me = s.me := (congrArg WorkPart.me hw).trans hserved.me
  refine ⟨hadmits.trans (.of_work hw), hme, (congrArg WorkPart.sm hw).trans hserved.sm, fun hu => ?_,
    bump_stats_same (hserved.counters _ (by decide) (by decide))⟩
  refine ⟨by rw [hme]; exact hu.active, by rw [hme]; exact hu.queue, by rw [hme]; exact hu.stack, ?_⟩
  refine (engineTests_of_calm (s := s) ?_).trans hu.tests
  exact (bump_calm _ _).trans (congrArg EnginePart.calm hserved.part)

theorem admission_pin {r : AdmissionRequest} {s : State} (ha : admissionApplies r s = true) (hu : Unasked s)
    (hp : r.pin = true) : (admission r s).2 = withMove .directed r.segment s := by
  unfold admission
  simp only [ha, Bool.not_true, Bool.false_eq_true, if_false, hp, if_true]
  exact hu.requestMove _ rfl

theorem admission_below {r : AdmissionRequest} {s : State} (ha : admissionApplies r s = true) (hp : r.pin = false)
    (hlt : r.heat < effectiveThreshold s) : (admission r s).2 = s := by
  unfold admission
  simp [ha, hp, hlt]

theorem admission_room {r : AdmissionRequest} {s : State} (ha : admissionApplies r s = true) (hu : Unasked s)
    (hp : r.pin = false) (hge : effectiveThreshold s ≤ r.heat) (hroom : s.params.freeReserve < s.sm.freeList.length) :
    (admission r s).2 = withMove .promote r.segment s := by
  unfold admission
  simp only [ha, Bool.not_true, Bool.false_eq_true, if_false, hp, Nat.not_lt.2 hge, if_pos hroom]
  exact hu.requestMove _ rfl

theorem admission_full {r : AdmissionRequest} {s : State} (ha : admissionApplies r s = true) (hp : r.pin = false)
    (hge : effectiveThreshold s ≤ r.heat) (hroom : ¬ s.params.freeReserve < s.sm.freeList.length) :
    admission r s = admitByEviction r s := by
  unfold admission
  simp only [ha, Bool.not_true, Bool.false_eq_true, if_false, hp, Nat.not_lt.2 hge, if_neg hroom]

theorem admitByEviction_noVictim {r : AdmissionRequest} {s : State} (hv : victimScan s = none) :
    (admitByEviction r s).2 = bump .admissionRefusals s := by
  unfold admitByEviction
  rw [hv]
  rfl

theorem admitByEviction_hot {r : AdmissionRequest} {s : State} {v h : Nat} (hv : victimScan s = some (v, h))
    (hlt : r.heat < admissionBar h s) : (admitByEviction r s).2 = bump .admissionRefusals s := by
  unfold admitByEviction
  rw [hv]
  dsimp only
  rw [if_pos hlt]
  rfl

theorem admitByEviction_kept {r : AdmissionRequest} {s : State} {v h : Nat} {e : Entry} (hv : victimScan s = some (v, h))
    (he : lookup v s = some e) (hc : e.state ≠ .clean) : (admitByEviction r s).2 = bump .admissionRefusals s := by
  unfold admitByEviction
  rw [hv]
  dsimp only
  rw [evict_other he hc]
  split <;> rfl

theorem admitByEviction_evicts {r : AdmissionRequest} {s : State} {v h : Nat} {e : Entry} (hu : Unasked s)
    (hr : ReadsUntracked s) (hv : victimScan s = some (v, h)) (hge : admissionBar h s ≤ r.heat)
    (he : lookup v s = some e) (hc : e.state = .clean) :
    (admitByEviction r s).2 = withMove .promote r.segment (bump .evictions (removeEntry v s)) := by
  obtain ⟨x, hx, hev⟩ := evictable_of_victimScan hv
  obtain rfl : x = e := Option.some.inj (hx.symm.trans he)
  obtain ⟨-, -, -, hunasked, -⟩ := evicted_leaves he hc hev hr
  unfold admitByEviction
  rw [hv]
  dsimp only
  rw [if_neg (Nat.not_lt.2 hge), evict_clean he hc hev]
  exact (hunasked hu).requestMove _ rfl

/-- Whatever the answer of an admission, the orders and the engine's places stay, but for a move queued. -/
theorem admission_admits {r : AdmissionRequest} {s : State} (ha : admissionApplies r s = true) (hu : Unasked s)
    (hr : ReadsUntracked s) : Admits s (admission r s).2 := by
  have hrefused : Admits s (bump .admissionRefusals s) := .of_work (bump_work _ _)
  cases hp : r.pin with
  | true =>
    rw [admission_pin ha hu hp]
    exact admits_withMove _ _ _
  | false =>
    rcases Nat.lt_or_ge r.heat (effectiveThreshold s) with hlt | hge
    · rw [admission_below ha hp hlt]
      exact .of_work rfl
    · by_cases hroom : s.params.freeReserve < s.sm.freeList.length
      · rw [admission_room ha hu hp hge hroom]
        exact admits_withMove _ _ _
      · rw [admission_full ha hp hge hroom]
        cases hv : victimScan s with
        | none =>
          rw [admitByEviction_noVictim hv]
          exact hrefused
        | some vh =>
          obtain ⟨v, h⟩ := vh
          obtain ⟨e, he, hev⟩ := evictable_of_victimScan hv
          rcases Nat.lt_or_ge r.heat (admissionBar h s) with hlt | hbar
          · rw [admitByEviction_hot hv hlt]
            exact hrefused
          · by_cases hc : e.state = .clean
            · rw [admitByEviction_evicts hu hr hv hbar he hc]
              exact (evicted_leaves he hc hev hr).1.trans (admits_withMove _ _ _)
            · rw [admitByEviction_kept hv he hc]
              exact hrefused

end Sys2Proof.Machine

/-! ## Routing: what a pass over one piece leaves -/

namespace Sys2Proof.Machine

theorem absorbsAbsent_atRest (a : Attempt) {s : State} (hr : engineAtRest s) : absorbsAbsent a s = true := by
  obtain ⟨-, -, -, -, -, -, hready, -⟩ := hr
  unfold absorbsAbsent
  simp [hready]

/-- A pass is due, and one WAITING piece is there to route. -/
structure OnePiece (tag : Fin 32) (c : Command) (p : Piece) (s : State) : Prop where
  due : s.ct.passDue = true
  mode : s.lu.mode ≠ .saving
  arrival : s.ct.arrival = [tag]
  command : commandOf tag s = some c
  pieces : c.pieces = [p]
  waiting : p.state = .waiting .route

namespace OnePiece

variable {tag : Fin 32} {c : Command} {p : Piece} {s : State} (h : OnePiece tag c p s)
include h

theorem exec : exec .routingPass s
    = .next (engineEvent (attemptRoute (attemptOf tag c p s) ⟨false, false⟩ (passBegun s)).2) :=
  exec_routingPass_single h.due h.mode h.arrival h.command h.pieces h.waiting

/-- A pass whose one attempt leaves the Migration Engine nothing to do. -/
theorem exec_quiet {t : State} (ht : (attemptRoute (attemptOf tag c p s) ⟨false, false⟩ (passBegun s)).2 = t)
    (hq : engineEvent t = t) : Machine.exec .routingPass s = .next t := by
  rw [h.exec, ht, hq]

/-! ### The routes to the platter -/

theorem read_absent (hr : engineAtRest s) (hk : c.kind = .read) (hl : lookup p.segment s = none)
    (hroom : s.pps.foreground.length < 64) (hn : c.classCopy.noPromote = true) :
    ∃ t, Machine.exec .routingPass s = .next t ∧ PlatterIssued (attemptOf tag c p s) .platterRead .read (passBegun s) t := by
  have hissued := tryPlatter_absent (a := attemptOf tag c p s) (route := .platterRead) (op := .read) (s := passBegun s) hl hroom hn
  refine ⟨_, h.exec_quiet ?_ (hissued.engineEvent hr), hissued⟩
  rw [attemptRoute_read hk, tryRead_absent hl]

theorem write_noFrame (hr : engineAtRest s) (hk : c.kind = .write) (hl : lookup p.segment s = none)
    (hflash : s.fps.foreground.length < 64) (hroom : s.pps.foreground.length < 64) (hf : s.sm.freeList = [])
    (hv : victimScan s = none) (hn : c.classCopy.noPromote = true) :
    ∃ t, Machine.exec .routingPass s = .next t
      ∧ PlatterIssued (attemptOf tag c p s) .platterWrite .write (passBegun s) t := by
  have hissued := tryPlatter_absent (a := attemptOf tag c p s) (route := .platterWrite) (op := .write) (s := passBegun s) hl hroom hn
  refine ⟨_, h.exec_quiet ?_ (hissued.engineEvent hr), hissued⟩
  rw [attemptRoute_write hk, tryWrite_absent (s := passBegun s) hr.1 hl, if_pos (absorbsAbsent_atRest _ (s := passBegun s) hr)]
  exact congrArg Prod.snd (tryAbsorb_noFrame (s := passBegun s) hl hflash hf
    ((victimScan_of_fields (t := passBegun s) (s := s) rfl rfl rfl rfl).trans hv) h.waiting)

theorem write_ready (hk : c.kind = .write) (hl : lookup p.segment s = none) (hroom : s.pps.foreground.length < 64)
    (hn : c.classCopy.noPromote = true) (hready : s.pm.state = .ready) (hd : s.pm.degraded = false)
    (hpin : (evaluate p.segment s).action ≠ .pin) (ha : s.me.active = none) (hq : s.me.queue = []) (hs : s.me.stack = [])
    (hdirty : s.sm.dirty = []) (hy : noYieldHeld s) :
    ∃ t, Machine.exec .routingPass s = .next t
      ∧ PlatterIssued (attemptOf tag c p s) .platterWrite .write (passBegun s) t := by
  have hissued := tryPlatter_absent (a := attemptOf tag c p s) (route := .platterWrite) (op := .write) (s := passBegun s) hl hroom hn
  have habsorbs : absorbsAbsent (attemptOf tag c p s) (passBegun s) = false := by
    unfold absorbsAbsent
    simp [passBegun, attemptOf, hready, hd, hpin]
  have hquiet := engineEvent_empty ((congrArg (fun w => w.me.active) hissued.work).trans ha)
    ((congrArg (fun w => w.me.stack) hissued.work).trans hs) ((congrArg (fun w => w.me.queue) hissued.work).trans hq)
    ((congrArg (fun w => w.sm.dirty) hissued.work).trans hdirty) (hissued.yields hy)
  refine ⟨_, h.exec_quiet ?_ hquiet, hissued⟩
  rw [attemptRoute_write hk, tryWrite_absent (s := passBegun s) ha hl, habsorbs]
  rfl

theorem trim_absent (hr : engineAtRest s) (hk : c.kind = .trim) (hl : lookup p.segment s = none)
    (hroom : s.pps.foreground.length < 64)
    (hold : ∀ o ∈ s.pps.foreground, ∀ g i, o.origin ≠ .piece tag s.ct.slots[tag].useNo g i) :
    Machine.exec .routingPass s = .next
      (issueOne (attemptOf tag c p s) .platterTrim .platter .trim (.platter p.segment) (passBegun s)) := by
  have hwork := issueOne_platter (attemptOf tag c p s) .platterTrim .trim (.platter p.segment) (passBegun s)
  refine h.exec_quiet ?_ (engineEvent_issued (s := passBegun s) hr (congrArg WorkPart.me hwork)
    (congrArg WorkPart.platter hwork) (congrArg WorkPart.slots hwork))
  rw [attemptRoute_trim hk]
  exact tryTrim_issued (s := passBegun s) hr hl hroom hold

/-! ### The routes to flash -/

theorem read_hit (hr : engineAtRest s) (hk : c.kind = .read) {e : Entry} (he : lookup p.segment s = some e)
    (hc : e.state = .clean) (hv : p.sectors &&& ~~~validSet e = 0) (hroom : s.fps.foreground.length < 64) :
    Machine.exec .routingPass s = .next (issueOne (attemptOf tag c p s) .flashRead .flash .read (.frame e.frame)
      (routeHeat (attemptOf tag c p s) (readHit e (passBegun s))).2) := by
  obtain ⟨hwork, -, -⟩ := issueOne_hit (a := attemptOf tag c p s) (s := passBegun s) he hc
  refine h.exec_quiet ?_ (engineEvent_issued (s := passBegun s) hr (congrArg WorkPart.me hwork)
    (congrArg WorkPart.platter hwork) (congrArg WorkPart.slots hwork))
  rw [attemptRoute_read hk]
  exact tryRead_hit (s := passBegun s) he hv hroom

theorem read_split (hr : engineAtRest s) (hk : c.kind = .read) {e : Entry} (he : lookup p.segment s = some e)
    (hc : e.state = .clean) (h1 : p.sectors &&& validSet e ≠ 0) (h2 : p.sectors &&& ~~~validSet e ≠ 0)
    (hflash : s.fps.foreground.length < 64) (hroom : s.pps.foreground.length < 64) :
    Machine.exec .routingPass s = .next (issueSplit (attemptOf tag c p s) e (passBegun s)) := by
  have hwork := issueSplit_work (a := attemptOf tag c p s) (s := passBegun s) he hc
  refine h.exec_quiet ?_ (engineEvent_issued (s := passBegun s) hr (congrArg WorkPart.me hwork)
    (congrArg WorkPart.platter hwork) (congrArg WorkPart.slots hwork))
  rw [attemptRoute_read hk]
  exact tryRead_split (s := passBegun s) he h1 h2 hflash hroom

theorem write_absorbed (hr : engineAtRest s) (hk : c.kind = .write) (hl : lookup p.segment s = none)
    (hroom : s.fps.foreground.length < 64) {f : Nat} {rest : List Nat} (hf : s.sm.freeList = f :: rest) :
    Machine.exec .routingPass s = .next (tryAbsorb (attemptOf tag c p s) ⟨false, false⟩ (passBegun s)).2 := by
  obtain ⟨-, hh, es, hwork, -⟩ := tryAbsorb_absent (a := attemptOf tag c p s) (s := passBegun s) hl hroom hf
  refine h.exec_quiet ?_ (engineEvent_issued (s := passBegun s) hr (congrArg WorkPart.me hwork)
    (congrArg WorkPart.platter hwork) (congrArg WorkPart.slots hwork))
  rw [attemptRoute_write hk, tryWrite_absent (s := passBegun s) hr.1 hl, if_pos (absorbsAbsent_atRest _ (s := passBegun s) hr)]

end OnePiece

end Sys2Proof.Machine

/-! ## Routing: the READ of an absent segment that asks for admission -/

namespace Sys2Proof.Machine

/-- The admission that the READ of a piece asks for. -/
def admissionOf (a : Attempt) (heat : Nat) : AdmissionRequest where
  segment := a.piece.segment
  heat := heat
  bypass := a.verdict.action == .bypass
  pin := a.verdict.action == .pin
  noPromote := a.cmd.classCopy.noPromote
  sequential := a.cmd.sequential

/-- A READ of an absent segment that may ask for admission. -/
structure AsksAdmission (a : Attempt) (s : State) : Prop where
  rest : engineAtRest s
  absent : lookup a.piece.segment s = none
  promotes : a.cmd.classCopy.noPromote = false
  random : a.cmd.sequential = false
  served : a.verdict.action ≠ .bypass
  tests : engineTests s = true
  arrival : s.ct.arrival = [a.tag]
  exact : arrivalExact s
  untaken : ∀ o ∈ s.fps.foreground, ∀ g i, o.origin ≠ .piece a.tag s.ct.slots[a.tag].useNo g i

section

variable {a : Attempt} {s t : State} (h : AsksAdmission a s) (ht : PlatterIssued a .platterRead .read s t)
include h ht

theorem AsksAdmission.applies (heat : Nat) : admissionApplies (admissionOf a heat) t = true := by
  obtain ⟨ha, hq, hs, -⟩ := h.rest
  have hmoves : moveOf a.piece.segment t = none := by
    unfold moveOf allMoves
    rw [show t.me = s.me from congrArg WorkPart.me ht.work, ha, hq, hs]
    rfl
  have habsent : lookup a.piece.segment t = none := by
    unfold lookup
    rw [show t.sm = s.sm from congrArg WorkPart.sm ht.work]
    exact h.absent
  unfold admissionApplies admissionOf
  simp [h.served, h.promotes, h.random, hmoves, habsent]

theorem AsksAdmission.unasked : Unasked t := by
  obtain ⟨ha, hq, hs, -⟩ := h.rest
  refine ⟨(congrArg (fun w => w.me.active) ht.work).trans ha, (congrArg (fun w => w.me.queue) ht.work).trans hq,
    (congrArg (fun w => w.me.stack) ht.work).trans hs, ?_⟩
  have hmode : t.lu.mode = s.lu.mode := congrArg WorkPart.mode ht.work
  have hmarker : t.lu.marker = s.lu.marker := congrArg WorkPart.marker ht.work
  have htests := h.tests
  unfold engineTests inReset at htests ⊢
  rw [hmode, hmarker]
  exact htests

theorem AsksAdmission.untracked : ReadsUntracked t := by
  intro o ho tag useNo g i horigin
  have hslots : t.ct.slots = issuedSlots a .platterRead [wholePart a .platter .read] s := congrArg WorkPart.slots ht.work
  have ho : o ∈ s.fps.foreground := (congrArg (fun w => w.fps.foreground) ht.work : t.fps.foreground = s.fps.foreground) ▸ ho
  unfold tracked
  by_cases htag : tag = a.tag
  · subst htag
    have huse : t.ct.slots[a.tag].useNo = s.ct.slots[a.tag].useNo := by
      rw [hslots]
      exact useNo_modifyPiece _ _ _ s
    have hne : s.ct.slots[a.tag].useNo ≠ useNo := fun e => h.untaken o ho g i (e ▸ horigin)
    rw [huse, beq_eq_false_iff_ne.2 hne, Bool.and_false]
  · have hfree : commandOf tag s = none := by
      have hnot : tag ∉ s.ct.arrival := by simp [h.arrival, htag]
      rw [h.exact.2 tag] at hnot
      simpa using hnot
    have hnone : commandOf tag t = none := by
      rw [commandOf_of_slots (s := modifyPiece a.tag a.piece.segment _ s) hslots]
      unfold modifyPiece
      rw [commandOf_modifyCommand_other htag, hfree]
    rw [hnone]
    rfl

theorem AsksAdmission.engineEvent (heat : Nat) :
    engineEvent (askAdmission a heat t) = askAdmission a heat t := by
  have hadmits : Admits t (askAdmission a heat t) := admission_admits (h.applies ht heat) (h.unasked ht) (h.untracked ht)
  obtain ⟨-, -, -, -, -, hurgent, -, hy⟩ := h.rest
  exact hadmits.engineEvent (ht.idle (EngineIdle.of_atRest h.rest))
    ((congrArg (fun w => w.me.urgent) ht.work).trans hurgent) (ht.yields hy)

theorem AsksAdmission.foreground (heat : Nat) :
    (askAdmission a heat t).pps.foreground
      = s.pps.foreground ++ [partOrder a 0 (wholePart a .platter .read) (.platter a.piece.segment) s] :=
  (admission_admits (h.applies ht heat) (h.unasked ht) (h.untracked ht)).foreground.trans
    (congrArg (fun w => w.pps.foreground) ht.work)

end

end Sys2Proof.Machine

/-! ## Routing: the answers to an admission, and the routing pass -/

namespace Sys2Proof.Machine

section

variable {a : Attempt} {s t : State} (h : AsksAdmission a s) (ht : PlatterIssued a .platterRead .read s t) {heat : Nat}

include ht in
theorem PlatterIssued.withMove (kind : MoveKind) :
    (withMove kind a.piece.segment t).me = oneMove kind a.piece.segment s.me
      ∧ (withMove kind a.piece.segment t).sm = s.sm := by
  have hserved := withMove_served kind a.piece.segment t
  have hme : t.me = s.me := congrArg WorkPart.me ht.work
  exact ⟨hserved.me.trans (congrArg (oneMove kind a.piece.segment) hme), hserved.sm.trans (congrArg WorkPart.sm ht.work)⟩

include ht in
theorem PlatterIssued.refused : (bump .admissionRefusals t).me = s.me ∧ (bump .admissionRefusals t).sm = s.sm
    ∧ (bump .admissionRefusals t).stats[counterIndex .admissionRefusals]
      = (bump .admissionRefusals s).stats[counterIndex .admissionRefusals] := by
  have hw : workPart (bump .admissionRefusals t) = workPart t := bump_work _ _
  exact ⟨(congrArg WorkPart.me hw).trans (congrArg WorkPart.me ht.work),
    (congrArg WorkPart.sm hw).trans (congrArg WorkPart.sm ht.work),
    bump_stats_same (ht.counters _ (by decide) (by decide) (by decide))⟩

include ht in
theorem PlatterIssued.threshold : effectiveThreshold t = effectiveThreshold s := by
  unfold effectiveThreshold
  rw [ht.degraded, show t.params = s.params from congrArg WorkPart.params ht.work]

include h ht

theorem AsksAdmission.victimScan : victimScan t = victimScan s :=
  victimScan_of_fields (congrArg WorkPart.sm ht.work) (congrArg WorkPart.rc ht.work) (congrArg WorkPart.params ht.work)
    ((congrArg (fun w => w.hu.epoch) ht.work).trans (heatUpdate_absent h.absent).epoch)

theorem AsksAdmission.pin (hp : a.verdict.action = .pin) :
    (askAdmission a heat t).me = oneMove .directed a.piece.segment s.me ∧ (askAdmission a heat t).sm = s.sm := by
  have hask : askAdmission a heat t = _ := admission_pin (h.applies ht heat) (h.unasked ht) (by simp [hp])
  rw [hask]
  exact ht.withMove .directed

theorem AsksAdmission.below (hp : a.verdict.action ≠ .pin) (hlt : heat < effectiveThreshold s) :
    (askAdmission a heat t).me = s.me ∧ (askAdmission a heat t).sm = s.sm := by
  have hask : askAdmission a heat t = t :=
    admission_below (h.applies ht heat) (by simp [hp]) (ht.threshold.symm ▸ hlt)
  rw [hask]
  exact ⟨congrArg WorkPart.me ht.work, congrArg WorkPart.sm ht.work⟩

theorem AsksAdmission.room (hp : a.verdict.action ≠ .pin) (hge : effectiveThreshold s ≤ heat)
    (hroom : s.params.freeReserve < s.sm.freeList.length) :
    (askAdmission a heat t).me = oneMove .promote a.piece.segment s.me ∧ (askAdmission a heat t).sm = s.sm := by
  have hparams : t.params = s.params := congrArg WorkPart.params ht.work
  have hsm : t.sm = s.sm := congrArg WorkPart.sm ht.work
  have hask : askAdmission a heat t = _ := admission_room (h.applies ht heat) (h.unasked ht) (by simp [hp])
    (ht.threshold.symm ▸ hge) (by rw [hparams, hsm]; exact hroom)
  rw [hask]
  exact ht.withMove .promote

/-- With no room above the reserve, the admission turns on the victim. -/
theorem AsksAdmission.full (hp : a.verdict.action ≠ .pin) (hge : effectiveThreshold s ≤ heat)
    (hroom : ¬ s.params.freeReserve < s.sm.freeList.length) :
    askAdmission a heat t = (admitByEviction (admissionOf a heat) t).2 := by
  have hparams : t.params = s.params := congrArg WorkPart.params ht.work
  have hsm : t.sm = s.sm := congrArg WorkPart.sm ht.work
  exact congrArg Prod.snd (admission_full (h.applies ht heat) (by simp [hp]) (ht.threshold.symm ▸ hge)
    (by rw [hparams, hsm]; exact hroom))

theorem AsksAdmission.evicts (hp : a.verdict.action ≠ .pin) (hge : effectiveThreshold s ≤ heat)
    (hroom : ¬ s.params.freeReserve < s.sm.freeList.length) {v vh : Nat} {e : Entry} (hv : Machine.victimScan s = some (v, vh))
    (hbar : min 65535 (vh + s.params.hysteresis) ≤ heat) (he : lookup v s = some e) (hc : e.state = .clean) :
    (askAdmission a heat t).me = oneMove .promote a.piece.segment s.me
      ∧ (askAdmission a heat t).sm = evictedMap v e s.sm
      ∧ (askAdmission a heat t).stats[counterIndex .evictions] = (bump .evictions s).stats[counterIndex .evictions] := by
  have hparams : t.params = s.params := congrArg WorkPart.params ht.work
  have hsm : t.sm = s.sm := congrArg WorkPart.sm ht.work
  have hme : t.me = s.me := congrArg WorkPart.me ht.work
  have hvt : Machine.victimScan t = some (v, vh) := (h.victimScan ht).trans hv
  have het : lookup v t = some e := by
    unfold lookup
    rw [hsm]
    exact he
  have hbart : admissionBar vh t ≤ heat := by
    unfold admissionBar
    rw [hparams]
    exact hbar
  obtain ⟨x, hx, hev⟩ := evictable_of_victimScan hvt
  obtain rfl : x = e := Option.some.inj (hx.symm.trans het)
  obtain ⟨-, hwme, hwsm, -, hwstat⟩ := evicted_leaves het hc hev (h.untracked ht)
  have hask := (h.full ht hp hge hroom).trans
    (admitByEviction_evicts (h.unasked ht) (h.untracked ht) hvt hbart het hc)
  rw [hask]
  generalize bump .evictions (removeEntry v t) = w at hwme hwsm hwstat
  have hserved := withMove_served .promote (admissionOf a heat).segment w
  refine ⟨hserved.me.trans (congrArg (oneMove .promote a.piece.segment) (hwme.trans hme)),
    hserved.sm.trans (hwsm.trans (congrArg (evictedMap v x) hsm)), ?_⟩
  exact (hserved.counters _ (by decide) (by decide)).trans
    (hwstat.trans (bump_stats_same (ht.counters _ (by decide) (by decide) (by decide))))

end

theorem lookup_evicted {v : Nat} {e : Entry} {s t : State} (ht : t.sm = evictedMap v e s.sm) : lookup v t = none := by
  unfold lookup
  rw [ht]
  exact List.find?_eq_none.2 fun x hx => by simpa using (List.mem_filter.1 hx).2

theorem frameState_evicted {v : Nat} {e : Entry} {s t : State} (ht : t.sm = evictedMap v e s.sm)
    (hf : e.frame < s.sm.frames.length) : frameState e.frame t = some .trimming := by
  unfold frameState
  rw [ht]
  show ((withFrameState e.frame .trimming s.sm.frames)[e.frame]?).map Frame.state = _
  simp [withFrameState, hf]

namespace OnePiece

variable {tag : Fin 32} {c : Command} {p : Piece} {s : State} (h : OnePiece tag c p s)
include h

/-- The pass of a READ that asks for admission. -/
theorem read_admission (hask : AsksAdmission (attemptOf tag c p s) (passBegun s)) (hk : c.kind = .read)
    (hroom : s.pps.foreground.length < 64) :
    ∃ t, PlatterIssued (attemptOf tag c p s) .platterRead .read (passBegun s) t
      ∧ Machine.exec .routingPass s = .next
        (askAdmission (attemptOf tag c p s) (heatUpdate p.segment c (evaluate p.segment s).boost s).1 t) := by
  have hissued := issueOne_absent (route := .platterRead) (op := .read) hask.absent
  refine ⟨_, hissued, h.exec_quiet ?_ (hask.engineEvent hissued _)⟩
  rw [attemptRoute_read hk, tryRead_absent hask.absent]
  unfold tryPlatter
  rw [lacksRoom_free (p := .platter) (s := passBegun s) hroom, ← (heatUpdate_withCt p.segment c (evaluate p.segment s).boost _ s).1]
  exact issuePlatter_absent hask.absent

end OnePiece

namespace Routing

/-- Settles O39: the attempt of the one piece is followed on its route, and the event of the Migration Engine that ends the pass
changes nothing more. -/
theorem routingPass : Obligations.RoutingPass := by
  intro s tag c p hd hm ha hc hp hw issued order
  have h : OnePiece tag c p s := ⟨hd, hm, ha, hc, hp, hw⟩
  refine ⟨fun hr => ⟨fun hk hl hroom hn => ?_, fun e hk he hs hv hroom => ?_, fun f rest hk hl hroom hf => ?_,
    fun e hk he hs h1 h2 hflash hroom => ?_, fun hk hl hroom hold => ?_, fun hk hl hflash hroom hf hv hn => ?_,
    fun hk hl hroom hn hseq hmode hmarker hby hexact hun => ?_⟩,
    fun hk hl hroom hn hready hdeg hpin hact hq hst _ hdirty hy => ?_,
    fun m e k hk he hi hact hkind hseg hstate h0 hstage h1 hq _ hdirty => ?_⟩
  · obtain ⟨t, ht, hissued⟩ := h.read_absent hr hk hl hroom hn
    exact ⟨t, ht, hissued.leaves hc hp⟩
  · obtain ⟨hwork, hpass, hcand⟩ := issueOne_hit (a := attemptOf tag c p s) (s := passBegun s) he hs
    refine ⟨_, h.read_hit hr hk he hs hv hroom, ?_⟩
    generalize issueOne _ _ _ _ _ _ = t at hwork hpass hcand ⊢
    exact ⟨commandOf_issuedSlots (a := attemptOf tag c p s) (s := passBegun s) hc hp (congrArg WorkPart.slots hwork),
      congrArg (fun w => w.fps.foreground) hwork, congrArg (fun w => w.sm.reclaim) hwork,
      lookup_hitMap (s := passBegun s) he (congrArg WorkPart.sm hwork), congrArg (fun w => w.sm.frames) hwork,
      congrArg (fun w => w.sm.freeList) hwork, congrArg (fun w => w.sm.dirty) hwork, hpass, congrArg WorkPart.arrival hwork,
      congrArg WorkPart.pps hwork, congrArg WorkPart.me hwork, hcand, congrArg WorkPart.completions hwork,
      congrArg WorkPart.mode hwork⟩
  · obtain ⟨hpass, heat, es, hwork, hlook⟩ := tryAbsorb_absent (a := attemptOf tag c p s) (s := passBegun s) hl hroom hf
    refine ⟨_, _, h.write_absorbed hr hk hl hroom hf, ?_, ?_, hlook, ?_⟩
    all_goals generalize (tryAbsorb _ _ _).2 = t at hwork hpass hlook ⊢
    · exact commandOf_issuedSlots (a := attemptOf tag c p s) (s := passBegun s) hc hp (congrArg WorkPart.slots hwork)
    · exact congrArg (fun w => w.fps.foreground) hwork
    · exact ⟨rfl, rfl, rfl, rfl, rfl, rfl, rfl, congrArg (fun w => w.sm.freeList) hwork, congrArg (fun w => w.sm.frames) hwork,
        congrArg (fun w => w.sm.reclaim) hwork, congrArg (fun w => w.sm.dirty) hwork, congrArg (fun w => w.sm.dirtyCount) hwork,
        hpass, congrArg WorkPart.arrival hwork, congrArg WorkPart.pps hwork, congrArg WorkPart.me hwork,
        congrArg WorkPart.completions hwork, congrArg WorkPart.mode hwork⟩
  · have hwork := issueSplit_work (a := attemptOf tag c p s) (s := passBegun s) he hs
    refine ⟨_, h.read_split hr hk he hs h1 h2 hflash hroom, ?_⟩
    generalize issueSplit _ _ _ = t at hwork ⊢
    exact ⟨commandOf_issuedSlots (a := attemptOf tag c p s) (s := passBegun s) hc hp (congrArg WorkPart.slots hwork),
      congrArg (fun w => w.fps.foreground) hwork, congrArg (fun w => w.pps.foreground) hwork,
      congrArg (fun w => w.sm.reclaim) hwork, congrArg WorkPart.me hwork, congrArg WorkPart.completions hwork,
      congrArg WorkPart.mode hwork⟩
  · have hwork := issueOne_platter (attemptOf tag c p s) .platterTrim .trim (.platter p.segment) (passBegun s)
    have hpass := issueOne_ct (attemptOf tag c p s) .platterTrim .platter .trim (.platter p.segment) (passBegun s)
    refine ⟨_, h.trim_absent hr hk hl hroom hold, ?_⟩
    generalize issueOne _ _ _ _ _ _ = t at hwork hpass ⊢
    exact ⟨commandOf_issuedSlots (a := attemptOf tag c p s) (s := passBegun s) hc hp (congrArg WorkPart.slots hwork),
      congrArg (fun w => w.pps.foreground) hwork, hpass, congrArg WorkPart.arrival hwork, congrArg WorkPart.fps hwork,
      congrArg WorkPart.sm hwork, congrArg WorkPart.hu hwork, congrArg WorkPart.me hwork,
      congrArg WorkPart.completions hwork, congrArg WorkPart.mode hwork⟩
  · obtain ⟨t, ht, hissued⟩ := h.write_noFrame hr hk hl hflash hroom hf hv hn
    exact ⟨t, ht, hissued.leaves hc hp⟩
  · intro heat threshold pin room asked refused
    have hask : AsksAdmission (attemptOf tag c p s) (passBegun s) :=
      ⟨hr, hl, hn, hseq, hby, by simp [engineTests, inReset, passBegun, hmode, hmarker], ha, hexact, hun⟩
    obtain ⟨u, hissued, hexec⟩ := h.read_admission hask hk hroom
    have hscan : victimScan (passBegun s) = victimScan s := victimScan_of_fields rfl rfl rfl rfl
    have hbumped : ∀ k, (bump k (passBegun s)).stats = (bump k s).stats := fun k => bump_stats_congr rfl
    have hrefused : refused (bump .admissionRefusals u) := by
      obtain ⟨hme, hsm, hstat⟩ := hissued.refused
      exact ⟨hme, hsm, hstat.trans (congrArg (fun v => v[counterIndex .admissionRefusals]) (hbumped _))⟩
    refine ⟨_, hexec, hask.foreground hissued _, fun hpin => hask.pin hissued hpin, fun hpin hlt => hask.below hissued hpin hlt,
      fun hpin hge hrm => hask.room hissued hpin hge hrm, fun hpin hge hrm hv => ?_, fun v vh hpin hge hrm hv => ?_⟩
    · rw [hask.full hissued hpin hge hrm, admitByEviction_noVictim ((hask.victimScan hissued).trans (hscan.trans hv))]
      exact hrefused
    · refine ⟨fun hlt => ?_, fun e hbar he hs => ?_⟩
      · have hparams : u.params = s.params := congrArg WorkPart.params hissued.work
        have hbar : (admissionOf (attemptOf tag c p s) heat).heat < admissionBar vh u := by
          unfold admissionBar
          rw [hparams]
          exact hlt
        rw [hask.full hissued hpin hge hrm, admitByEviction_hot ((hask.victimScan hissued).trans (hscan.trans hv)) hbar]
        exact hrefused
      · obtain ⟨hme, hsm, hstat⟩ := hask.evicts hissued hpin hge hrm (hscan.trans hv) hbar he hs
        exact ⟨hme, lookup_evicted hsm, congrArg SegmentMap.reclaim hsm, fun hf => frameState_evicted hsm hf,
          hstat.trans (congrArg (fun v => v[counterIndex .evictions]) (hbumped _))⟩
  · obtain ⟨t, ht, hissued⟩ := h.write_ready hk hl hroom hn hready hdeg hpin hact hq hst hdirty hy
    obtain ⟨h1, h2, h3, h4, -, h6⟩ := hissued.leaves hc hp
    exact ⟨t, ht, h1, h2, h3, h4, h6⟩
  · have hflush : isFlush m.kind = false := by
      rcases hkind with hkind | hkind <;> rw [hkind] <;> rfl
    have hpromoting : Promoting p.segment m k (passBegun s) := ⟨hact, hflush, hseg, ⟨e, he, hi⟩, h0, hstage, h1⟩
    refine ⟨_, h.exec, ?_⟩
    rw [attemptRoute_busy hk _ hpromoting.busy]
    exact holdByYield_leaves (a := attemptOf tag c p s) hpromoting hstate hm hq hdirty hc hp

end Routing

end Sys2Proof.Machine
